-- ==== Sys2Proof/Word.lean ====
section
/-! DEFINITION. The word types of the machine (00_scope.md section 4: XLEN 64; 30_encoding.md R101: the fields of a slot). -/

namespace Sys2Proof

/-- A byte of data memory or of program text (20_memory.md R60). -/
abbrev Byte := BitVec 8

/-- The content of a register, and an address (10_state.md R31, 20_memory.md R60). -/
abbrev Word := BitVec 64

/-- A 4-bit register field (30_encoding.md R101). Only 0 to 10 name registers (R109). -/
abbrev RegNum := BitVec 4

/-- The 32-bit pattern of an `imm` or `next_imm` field (30_encoding.md R101, R104). -/
abbrev Imm := BitVec 32

/-- The 16-bit pattern of an `offset` field (30_encoding.md R101). -/
abbrev Offset := BitVec 16

end Sys2Proof
end

