-- ==== Sys2Proof/Config.lean ====
section
/-! DEFINITION. The parameters of a run (00_scope.md section 4; 70_reset_and_hazards.md R473), as plain data. Every
partial function of the platform has a finite domain, so a finite table holds any of them (assumption log entry 4). -/

namespace Sys2Proof

/-- The host byte order, `HOST_ENDIAN` (00_scope.md section 4, decision D1). -/
inductive Endian where
  | little
  | big
  deriving DecidableEq, Repr

/-- The seven conformance groups (00_scope.md R3). -/
inductive Group where
  | base32
  | base64
  | atomic32
  | atomic64
  | divmul32
  | divmul64
  | packet
  deriving DecidableEq, Repr

/-- The kinds of memory access that `MemAdmit` tells apart (20_memory.md R62). -/
inductive AccessKind where
  | load
  | store
  | atomic
  deriving DecidableEq, Repr

/-- The two ID spaces of helper functions (10_state.md R45): static IDs (kind 0) and BTF IDs (kind 2). -/
inductive HelperKind where
  | staticId
  | btfId
  deriving DecidableEq, Repr

/-- The mode of a packet instruction (48_packet.md R421). -/
inductive PacketMode where
  | abs
  | ind
  deriving DecidableEq, Repr

/-- The size of a packet instruction (48_packet.md R421). -/
inductive PacketSize where
  | w
  | h
  | b
  deriving DecidableEq, Repr

/-- What the platform answers with a state change: a helper, or one of the six packet instructions on a platform
that supports them, with their operands (10_state.md R45, 48_packet.md R421, R428). -/
inductive PlatformFn where
  | helper (kind : HelperKind) (id : Imm)
  | packet (mode : PacketMode) (size : PacketSize) (src : RegNum) (imm : Imm)
  deriving DecidableEq, Repr

/-- One answer of the platform: the call fails, or it returns with some registers given a value (or left without
one) and some bytes of memory written (44_call_exit.md R321, 60_exceptions.md R435, R438). -/
inductive Answer where
  | fails
  | returns (regs : List (RegNum × Option Word)) (bytes : List (Word × Byte))
  deriving DecidableEq, Repr

/-- A part of the relation a platform function is (44_call_exit.md R321): in a state whose registers have the contents
`regs` and whose memory has the bytes `bytes`, the function may give `answer`. -/
structure PlatformRule where
  regs : List (RegNum × Option Word)
  bytes : List (Word × Byte)
  answer : Answer
  deriving DecidableEq, Repr

/-- A function the platform has, and the relation it is from the registers and memory before the call to what it answers
(10_state.md R45, 44_call_exit.md R321, R323; assumption log entry 8). -/
structure PlatformEntry where
  fn : PlatformFn
  rules : List PlatformRule
  deriving DecidableEq, Repr

/-- Free value: where the relation of a platform function gives several answers, which of them the platform call number
`n` of the run takes, modulo their number (44_call_exit.md R321 "any pair"; assumption log entry 8). -/
opaque Config.freeChoice : Nat → Nat

/-- A part of `MemAdmit` (20_memory.md R62): the accesses of the given sizes and kinds that lie inside
`base .. base + size - 1` are admitted. -/
structure Grant where
  base : Word
  size : Nat
  widths : List Nat
  kinds : List AccessKind
  deriving DecidableEq, Repr

/-- A range of addresses: `base .. base + size - 1`. -/
structure AddrRange where
  base : Word
  size : Nat
  deriving DecidableEq, Repr

/-- One turn of the environment agent: the bytes it writes, in order (20_memory.md R74). -/
abbrev EnvTurn := List (Word × Byte)

/-- Free value: the bytes the environment writes at its free turn number `n`, in order (20_memory.md R74 "any value";
assumption log entry 10). -/
opaque Config.freeTurn : Nat → EnvTurn

/-- A slot of program text: its eight bytes in the order they stand in the program image (30_encoding.md R103). -/
structure Slot where
  b0 : Byte
  b1 : Byte
  b2 : Byte
  b3 : Byte
  b4 : Byte
  b5 : Byte
  b6 : Byte
  b7 : Byte
  deriving DecidableEq, Repr

/-- The parameters of a run, which no instruction changes (10_state.md R30; 70_reset_and_hazards.md R473). -/
structure Params where
  /-- `PROGRAM` (10_state.md R44) -/
  program : List Slot
  /-- `HOST_ENDIAN` -/
  endian : Endian
  /-- `GROUPS`; `base32` and what a group includes need not be listed (00_scope.md R3, R5) -/
  groups : List Group
  /-- `MemAdmit` (20_memory.md R62) -/
  grants : List Grant
  /-- `Shared` (20_memory.md R74) -/
  shared : List AddrRange
  /-- `ALLOW_MISALIGNED` (20_memory.md R70) -/
  allowMisaligned : Bool
  /-- `PLAIN_ACCESS_ATOMIC` (20_memory.md R73) -/
  plainAccessAtomic : Bool
  /-- `CALL_DEPTH_MAX`, `none` for unbounded (44_call_exit.md R326) -/
  callDepthMax : Option Nat
  /-- `Helper`, and the packet instructions where the platform supplies them (10_state.md R45, 48_packet.md R428) -/
  platform : List PlatformEntry
  /-- `map_by_fd` (10_state.md R47) -/
  mapByFd : List (Imm × Word)
  /-- `map_by_idx` (10_state.md R47) -/
  mapByIdx : List (Imm × Word)
  /-- `map_val` (10_state.md R47) -/
  mapVal : List (Word × Word)
  /-- `var_addr` (10_state.md R48) -/
  varAddr : List (Imm × Word)
  /-- `code_addr`, of the slot index of the instruction and its `imm` (10_state.md R49) -/
  codeAddr : List ((Int × Imm) × Word)
  deriving DecidableEq, Repr

/-- The spec's own value of `GROUPS`: every group but packet (00_scope.md R5, decision D2). -/
def defaultGroups : List Group := [.base32, .base64, .atomic32, .atomic64, .divmul32, .divmul64]

/-- The whole 64-bit address space, every size and kind of access. -/
def wholeSpace : Grant := ⟨0, 2 ^ 64, [1, 2, 4, 8], [.load, .store, .atomic]⟩

/-- The parameters of the launch that `State.reset` is: `GROUPS`, `ALLOW_MISALIGNED` and `PLAIN_ACCESS_ATOMIC` at the
spec's defaults; what the spec leaves OPEN as assumption log entry 5 says. DESIGN CHOICE, unsafe. -/
def defaultParams : Params where
  program := []
  endian := .little
  groups := defaultGroups
  grants := [wholeSpace]
  shared := []
  allowMisaligned := false
  plainAccessAtomic := false
  callDepthMax := none
  platform := []
  mapByFd := []
  mapByIdx := []
  mapVal := []
  varAddr := []
  codeAddr := []

end Sys2Proof
end

