-- ==== Sys2Proof/Machine/Arith.lean ====
section
/-! DEFINITION. The arithmetic of the ALU and byte swap instructions, at the width of the operation (32 or 64 bits):
40_alu_add_to_rsh.md, 41_alu_neg_to_arsh.md, 42_byteswap.md. -/

namespace Sys2Proof.Machine

/-- Modulo 2^w (40_alu_add_to_rsh.md R152). -/
def aluAdd {w : Nat} (a b : BitVec w) : BitVec w := a + b

/-- Modulo 2^w (40_alu_add_to_rsh.md R152). -/
def aluSub {w : Nat} (a b : BitVec w) : BitVec w := a - b

/-- Modulo 2^w (40_alu_add_to_rsh.md R152). -/
def aluMul {w : Nat} (a b : BitVec w) : BitVec w := a * b

/-- Unsigned quotient; 0 for a zero divisor (40_alu_add_to_rsh.md R153). -/
def aluDiv {w : Nat} (a b : BitVec w) : BitVec w := if b = 0 then 0 else BitVec.ofNat w (a.toNat / b.toNat)

/-- Signed quotient rounded toward zero, wrapped; 0 for a zero divisor (40_alu_add_to_rsh.md R153, R154). -/
def aluSdiv {w : Nat} (a b : BitVec w) : BitVec w := if b = 0 then 0 else BitVec.ofInt w (a.toInt.tdiv b.toInt)

/-- Unsigned remainder; the dividend for a zero divisor (41_alu_neg_to_arsh.md R200). -/
def aluMod {w : Nat} (a b : BitVec w) : BitVec w := if b = 0 then a else BitVec.ofNat w (a.toNat % b.toNat)

/-- `a - n * trunc(a / n)` in the integers; the dividend for a zero divisor (41_alu_neg_to_arsh.md R200, R201). -/
def aluSmod {w : Nat} (a b : BitVec w) : BitVec w :=
  if b = 0 then a else BitVec.ofInt w (a.toInt - b.toInt * a.toInt.tdiv b.toInt)

/-- Bitwise or. -/
def aluOr {w : Nat} (a b : BitVec w) : BitVec w := a ||| b

/-- Bitwise and. -/
def aluAnd {w : Nat} (a b : BitVec w) : BitVec w := a &&& b

/-- Bitwise exclusive or. -/
def aluXor {w : Nat} (a b : BitVec w) : BitVec w := a ^^^ b

/-- The masked shift amount: the mask is 0x1F at 32 bits and 0x3F at 64 bits (30_encoding.md R115). -/
def shiftAmount {w : Nat} (b : BitVec w) : Nat := (b &&& BitVec.ofNat w (w - 1)).toNat

/-- Shift left (30_encoding.md R115). -/
def aluLsh {w : Nat} (a b : BitVec w) : BitVec w := a <<< shiftAmount b

/-- Shift right, zeros enter (30_encoding.md R115). -/
def aluRsh {w : Nat} (a b : BitVec w) : BitVec w := a >>> shiftAmount b

/-- Shift right, the sign enters (30_encoding.md R115). -/
def aluArsh {w : Nat} (a b : BitVec w) : BitVec w := a.sshiftRight (shiftAmount b)

/-- Modulo 2^w (40_alu_add_to_rsh.md R152). -/
def aluNeg {w : Nat} (a : BitVec w) : BitVec w := -a

/-- The low `k` bits, sign-extended to the width (00_scope.md R10, 41_alu_neg_to_arsh.md R202). -/
def signExtendLow {w : Nat} (k : Nat) (v : BitVec w) : BitVec w := (v.setWidth k).signExtend w

/-! ## Byte order (00_scope.md R9) -/

/-- `swap16`. -/
def swap16 (v : BitVec 16) : BitVec 16 := v.extractLsb' 0 8 ++ v.extractLsb' 8 8

/-- `swap32`. -/
def swap32 (v : BitVec 32) : BitVec 32 :=
  v.extractLsb' 0 8 ++ v.extractLsb' 8 8 ++ v.extractLsb' 16 8 ++ v.extractLsb' 24 8

/-- `swap64`. -/
def swap64 (v : BitVec 64) : BitVec 64 :=
  v.extractLsb' 0 8 ++ v.extractLsb' 8 8 ++ v.extractLsb' 16 8 ++ v.extractLsb' 24 8
    ++ v.extractLsb' 32 8 ++ v.extractLsb' 40 8 ++ v.extractLsb' 48 8 ++ v.extractLsb' 56 8

/-- A conversion between the host byte order `host` and the order `named`: nothing where they agree, else the byte
reversal (00_scope.md R9). -/
def convert {w : Nat} (host named : Endian) (swap : BitVec w → BitVec w) (v : BitVec w) : BitVec w :=
  if host = named then v else swap v

end Sys2Proof.Machine
end

