-- ==== Sys2Proof/Machine/State.lean ====
section
/-! DEFINITION. The state of one run (10_state.md R30) as plain data, the kinds of fault (60_exceptions.md R432), and
the state at launch (10_state.md R52). -/

namespace Sys2Proof.Machine

/-- What an instruction asked of the platform (60_exceptions.md R432, column `info` of `PlatformFault`). -/
inductive PlatformQuery where
  /-- a helper (44_call_exit.md R321, R323) or a packet instruction (48_packet.md R428) -/
  | call (fn : PlatformFn)
  /-- `map_by_fd(imm)` (47_imm64.md R402, R403) -/
  | mapByFd (imm : Imm)
  /-- `map_by_idx(imm)` (47_imm64.md R406, R407) -/
  | mapByIdx (imm : Imm)
  /-- `map_val(m)` (47_imm64.md R403, R407) -/
  | mapVal (map : Word)
  /-- `var_addr(imm)` (47_imm64.md R404) -/
  | varAddr (imm : Imm)
  /-- `code_addr(pc, imm)` (47_imm64.md R405) -/
  | codeAddr (pc : Int) (imm : Imm)
  deriving DecidableEq, Repr

/-- The fault kinds with what each records (60_exceptions.md R432). -/
inductive FaultKind where
  /-- a slot index outside the program (R434) -/
  | pcOutOfRange (slot : Int)
  /-- no legal encoding at `pc` (R433) -/
  | illegalInstruction (pc : Int)
  /-- the instruction's group is not supported (R436) -/
  | unsupportedInstruction (pc : Int)
  /-- a register that holds no value is read (R435) -/
  | uninitRegister (r : RegNum)
  /-- a memory access that is not admitted or is misaligned (R437) -/
  | memoryFault (addr : Word) (n : Nat) (kind : AccessKind)
  /-- the platform answers "none", or its function fails (R438) -/
  | platformFault (query : PlatformQuery)
  /-- `CALL_LOCAL` at the greatest depth (R439) -/
  | callDepthExceeded (pc : Int)
  deriving DecidableEq, Repr

/-- The run status (10_state.md R50). -/
inductive Status where
  | running
  /-- EXIT with an empty call stack; the result is r0, or no value -/
  | exited (result : Option Word)
  /-- a fault (60_exceptions.md R431) -/
  | faulted (kind : FaultKind)
  deriving DecidableEq, Repr

/-- Data memory: the bytes that are not `blankByte`, by address, addresses rising. -/
abbrev Memory := List Host.Cell

/-- The environment agent (20_memory.md R74): its turns from now on are those of `coming`, then the free turns
`Config.freeTurn taken`, `Config.freeTurn (taken + 1)`, and so on without end (assumption log entry 10). -/
structure Environment where
  coming : List EnvTurn
  taken : Nat
  deriving DecidableEq, Repr

/-- The state of one run (10_state.md R30), with its parameters and the two fields of the model's own that carry what
the spec leaves free. -/
structure State where
  /-- r0 to r10: 64 bits, or no value (R31, R33) -/
  x : Vector (Option Word) 11
  /-- the index of a slot, an integer (R36) -/
  pc : Int
  /-- the call stack, the innermost return slot last (R42) -/
  calls : List Int
  /-- data memory (20_memory.md R60) -/
  mem : Memory
  /-- R50 -/
  status : Status
  /-- the parameters of the run, which no instruction changes (R30) -/
  params : Params
  /-- the MODEL's own: the environment's turns from now on (20_memory.md R74; assumption log entry 10) -/
  env : Environment
  /-- the MODEL's own: how many calls the platform has answered, which the free choice of the next answer is a function
  of (assumption log entry 8) -/
  draws : Nat
  deriving DecidableEq, Repr

/-- Why a step is not taken: the run has ended, and an ended run takes no step (10_state.md R50, 60_exceptions.md
R431). Raised by `step` only, never by the meaning of an instruction: an instruction that faults takes a next state
whose `status` is `faulted`. Safe. -/
inductive Fault where
  /-- the run has exited with this result -/
  | exited (result : Option Word)
  /-- the run has faulted -/
  | faulted (kind : FaultKind)
  deriving DecidableEq, Repr

/-- Raised by nothing: every instruction has its meaning. Safe. -/
inductive Refusal where
  /-- an instruction whose meaning is not written, by its mnemonic; no arm of `exec` answers it -/
  | notModelled (mnemonic : String)
  deriving DecidableEq, Repr

/-- What a step answers. -/
abbrev Result := Host.Outcome State Fault Refusal

/-- What a byte of memory reads as that the state does not list. The spec leaves the content of memory at launch OPEN
(20_memory.md R81, 92_eei_decisions.md D12). DESIGN CHOICE, unsafe: assumption log entry 3. -/
def blankByte : Byte := 0

/-- The state at launch (10_state.md R52, 70_reset_and_hazards.md R470): the platform chooses the parameters, the
registers and memory, and the turns of the environment are what they will be. -/
def State.launch (params : Params) (regs : Vector (Option Word) 11) (mem : Memory) (env : Environment) : State where
  x := regs
  pc := 0
  calls := []
  mem := mem
  status := .running
  params := params
  env := env
  draws := 0

/-- The machine right after reset: one launch. What 10_state.md R52 fixes (`pc`, `calls`, `status`) is as it says;
the registers (0), memory (nothing listed) and the parameters are the model's choices: DESIGN CHOICE, unsafe,
assumption log entries 1, 3 and 5. No statement rests on the numbers in `env` and `draws` (entries 8 and 10). -/
def State.reset : State := State.launch defaultParams (Vector.replicate 11 (some 0)) [] ⟨[], 0⟩

end Sys2Proof.Machine
end

