-- ==== Sys2Proof/Syntax.lean ====
section
/-! DEFINITION. The instructions: one constructor for each row of spec/opcode_table.json, with the fields the row uses
as operands (30_encoding.md R101, R108, R127). `dst` and `src` are register fields, `off` the `offset` field,
`nextImm` the `next_imm` field of the second slot (R104). -/

namespace Sys2Proof

/-- The five fields of a slot (30_encoding.md R101). -/
structure Fields where
  opcode : BitVec 8
  dst : RegNum
  src : RegNum
  offset : Offset
  imm : Imm
  deriving DecidableEq, Repr

/-- The instructions, by the spec's mnemonics (30_encoding.md R134) in the order of the opcode table. -/
inductive Instr where
  /-- `ADD32_K`, 40_alu_add_to_rsh.md R156. -/
  | add32K (dst : RegNum) (imm : Imm)
  /-- `ADD32_X`, 40_alu_add_to_rsh.md R157. -/
  | add32X (dst src : RegNum)
  /-- `ADD64_K`, 40_alu_add_to_rsh.md R158. -/
  | add64K (dst : RegNum) (imm : Imm)
  /-- `ADD64_X`, 40_alu_add_to_rsh.md R159. -/
  | add64X (dst src : RegNum)
  /-- `SUB32_K`, 40_alu_add_to_rsh.md R160. -/
  | sub32K (dst : RegNum) (imm : Imm)
  /-- `SUB32_X`, 40_alu_add_to_rsh.md R161. -/
  | sub32X (dst src : RegNum)
  /-- `SUB64_K`, 40_alu_add_to_rsh.md R162. -/
  | sub64K (dst : RegNum) (imm : Imm)
  /-- `SUB64_X`, 40_alu_add_to_rsh.md R163. -/
  | sub64X (dst src : RegNum)
  /-- `MUL32_K`, 40_alu_add_to_rsh.md R164. -/
  | mul32K (dst : RegNum) (imm : Imm)
  /-- `MUL32_X`, 40_alu_add_to_rsh.md R165. -/
  | mul32X (dst src : RegNum)
  /-- `MUL64_K`, 40_alu_add_to_rsh.md R166. -/
  | mul64K (dst : RegNum) (imm : Imm)
  /-- `MUL64_X`, 40_alu_add_to_rsh.md R167. -/
  | mul64X (dst src : RegNum)
  /-- `DIV32_K`, 40_alu_add_to_rsh.md R168. -/
  | div32K (dst : RegNum) (imm : Imm)
  /-- `DIV32_X`, 40_alu_add_to_rsh.md R169. -/
  | div32X (dst src : RegNum)
  /-- `DIV64_K`, 40_alu_add_to_rsh.md R170. -/
  | div64K (dst : RegNum) (imm : Imm)
  /-- `DIV64_X`, 40_alu_add_to_rsh.md R171. -/
  | div64X (dst src : RegNum)
  /-- `SDIV32_K`, 40_alu_add_to_rsh.md R172. -/
  | sdiv32K (dst : RegNum) (imm : Imm)
  /-- `SDIV32_X`, 40_alu_add_to_rsh.md R173. -/
  | sdiv32X (dst src : RegNum)
  /-- `SDIV64_K`, 40_alu_add_to_rsh.md R174. -/
  | sdiv64K (dst : RegNum) (imm : Imm)
  /-- `SDIV64_X`, 40_alu_add_to_rsh.md R175. -/
  | sdiv64X (dst src : RegNum)
  /-- `OR32_K`, 40_alu_add_to_rsh.md R176. -/
  | or32K (dst : RegNum) (imm : Imm)
  /-- `OR32_X`, 40_alu_add_to_rsh.md R177. -/
  | or32X (dst src : RegNum)
  /-- `OR64_K`, 40_alu_add_to_rsh.md R178. -/
  | or64K (dst : RegNum) (imm : Imm)
  /-- `OR64_X`, 40_alu_add_to_rsh.md R179. -/
  | or64X (dst src : RegNum)
  /-- `AND32_K`, 40_alu_add_to_rsh.md R180. -/
  | and32K (dst : RegNum) (imm : Imm)
  /-- `AND32_X`, 40_alu_add_to_rsh.md R181. -/
  | and32X (dst src : RegNum)
  /-- `AND64_K`, 40_alu_add_to_rsh.md R182. -/
  | and64K (dst : RegNum) (imm : Imm)
  /-- `AND64_X`, 40_alu_add_to_rsh.md R183. -/
  | and64X (dst src : RegNum)
  /-- `LSH32_K`, 40_alu_add_to_rsh.md R184. -/
  | lsh32K (dst : RegNum) (imm : Imm)
  /-- `LSH32_X`, 40_alu_add_to_rsh.md R185. -/
  | lsh32X (dst src : RegNum)
  /-- `LSH64_K`, 40_alu_add_to_rsh.md R186. -/
  | lsh64K (dst : RegNum) (imm : Imm)
  /-- `LSH64_X`, 40_alu_add_to_rsh.md R187. -/
  | lsh64X (dst src : RegNum)
  /-- `RSH32_K`, 40_alu_add_to_rsh.md R188. -/
  | rsh32K (dst : RegNum) (imm : Imm)
  /-- `RSH32_X`, 40_alu_add_to_rsh.md R189. -/
  | rsh32X (dst src : RegNum)
  /-- `RSH64_K`, 40_alu_add_to_rsh.md R190. -/
  | rsh64K (dst : RegNum) (imm : Imm)
  /-- `RSH64_X`, 40_alu_add_to_rsh.md R191. -/
  | rsh64X (dst src : RegNum)
  /-- `NEG32`, 41_alu_neg_to_arsh.md R204. -/
  | neg32 (dst : RegNum)
  /-- `NEG64`, 41_alu_neg_to_arsh.md R205. -/
  | neg64 (dst : RegNum)
  /-- `MOD32_K`, 41_alu_neg_to_arsh.md R206. -/
  | mod32K (dst : RegNum) (imm : Imm)
  /-- `MOD32_X`, 41_alu_neg_to_arsh.md R207. -/
  | mod32X (dst src : RegNum)
  /-- `MOD64_K`, 41_alu_neg_to_arsh.md R208. -/
  | mod64K (dst : RegNum) (imm : Imm)
  /-- `MOD64_X`, 41_alu_neg_to_arsh.md R209. -/
  | mod64X (dst src : RegNum)
  /-- `SMOD32_K`, 41_alu_neg_to_arsh.md R210. -/
  | smod32K (dst : RegNum) (imm : Imm)
  /-- `SMOD32_X`, 41_alu_neg_to_arsh.md R211. -/
  | smod32X (dst src : RegNum)
  /-- `SMOD64_K`, 41_alu_neg_to_arsh.md R212. -/
  | smod64K (dst : RegNum) (imm : Imm)
  /-- `SMOD64_X`, 41_alu_neg_to_arsh.md R213. -/
  | smod64X (dst src : RegNum)
  /-- `XOR32_K`, 41_alu_neg_to_arsh.md R214. -/
  | xor32K (dst : RegNum) (imm : Imm)
  /-- `XOR32_X`, 41_alu_neg_to_arsh.md R215. -/
  | xor32X (dst src : RegNum)
  /-- `XOR64_K`, 41_alu_neg_to_arsh.md R216. -/
  | xor64K (dst : RegNum) (imm : Imm)
  /-- `XOR64_X`, 41_alu_neg_to_arsh.md R217. -/
  | xor64X (dst src : RegNum)
  /-- `MOV32_K`, 41_alu_neg_to_arsh.md R218. -/
  | mov32K (dst : RegNum) (imm : Imm)
  /-- `MOV32_X`, 41_alu_neg_to_arsh.md R219. -/
  | mov32X (dst src : RegNum)
  /-- `MOV64_K`, 41_alu_neg_to_arsh.md R220. -/
  | mov64K (dst : RegNum) (imm : Imm)
  /-- `MOV64_X`, 41_alu_neg_to_arsh.md R221. -/
  | mov64X (dst src : RegNum)
  /-- `MOVSX32_8`, 41_alu_neg_to_arsh.md R222. -/
  | movsx32_8 (dst src : RegNum)
  /-- `MOVSX32_16`, 41_alu_neg_to_arsh.md R223. -/
  | movsx32_16 (dst src : RegNum)
  /-- `MOVSX64_8`, 41_alu_neg_to_arsh.md R224. -/
  | movsx64_8 (dst src : RegNum)
  /-- `MOVSX64_16`, 41_alu_neg_to_arsh.md R225. -/
  | movsx64_16 (dst src : RegNum)
  /-- `MOVSX64_32`, 41_alu_neg_to_arsh.md R226. -/
  | movsx64_32 (dst src : RegNum)
  /-- `ARSH32_K`, 41_alu_neg_to_arsh.md R227. -/
  | arsh32K (dst : RegNum) (imm : Imm)
  /-- `ARSH32_X`, 41_alu_neg_to_arsh.md R228. -/
  | arsh32X (dst src : RegNum)
  /-- `ARSH64_K`, 41_alu_neg_to_arsh.md R229. -/
  | arsh64K (dst : RegNum) (imm : Imm)
  /-- `ARSH64_X`, 41_alu_neg_to_arsh.md R230. -/
  | arsh64X (dst src : RegNum)
  /-- `LE16`, 42_byteswap.md R245. -/
  | le16 (dst : RegNum)
  /-- `LE32`, 42_byteswap.md R246. -/
  | le32 (dst : RegNum)
  /-- `LE64`, 42_byteswap.md R247. -/
  | le64 (dst : RegNum)
  /-- `BE16`, 42_byteswap.md R248. -/
  | be16 (dst : RegNum)
  /-- `BE32`, 42_byteswap.md R249. -/
  | be32 (dst : RegNum)
  /-- `BE64`, 42_byteswap.md R250. -/
  | be64 (dst : RegNum)
  /-- `BSWAP16`, 42_byteswap.md R251. -/
  | bswap16 (dst : RegNum)
  /-- `BSWAP32`, 42_byteswap.md R252. -/
  | bswap32 (dst : RegNum)
  /-- `BSWAP64`, 42_byteswap.md R253. -/
  | bswap64 (dst : RegNum)
  /-- `JEQ64_K`, 43_jump.md R268. -/
  | jeq64K (dst : RegNum) (off : Offset) (imm : Imm)
  /-- `JEQ64_X`, 43_jump.md R269. -/
  | jeq64X (dst src : RegNum) (off : Offset)
  /-- `JEQ32_K`, 43_jump.md R270. -/
  | jeq32K (dst : RegNum) (off : Offset) (imm : Imm)
  /-- `JEQ32_X`, 43_jump.md R271. -/
  | jeq32X (dst src : RegNum) (off : Offset)
  /-- `JGT64_K`, 43_jump.md R272. -/
  | jgt64K (dst : RegNum) (off : Offset) (imm : Imm)
  /-- `JGT64_X`, 43_jump.md R273. -/
  | jgt64X (dst src : RegNum) (off : Offset)
  /-- `JGT32_K`, 43_jump.md R274. -/
  | jgt32K (dst : RegNum) (off : Offset) (imm : Imm)
  /-- `JGT32_X`, 43_jump.md R275. -/
  | jgt32X (dst src : RegNum) (off : Offset)
  /-- `JGE64_K`, 43_jump.md R276. -/
  | jge64K (dst : RegNum) (off : Offset) (imm : Imm)
  /-- `JGE64_X`, 43_jump.md R277. -/
  | jge64X (dst src : RegNum) (off : Offset)
  /-- `JGE32_K`, 43_jump.md R278. -/
  | jge32K (dst : RegNum) (off : Offset) (imm : Imm)
  /-- `JGE32_X`, 43_jump.md R279. -/
  | jge32X (dst src : RegNum) (off : Offset)
  /-- `JSET64_K`, 43_jump.md R280. -/
  | jset64K (dst : RegNum) (off : Offset) (imm : Imm)
  /-- `JSET64_X`, 43_jump.md R281. -/
  | jset64X (dst src : RegNum) (off : Offset)
  /-- `JSET32_K`, 43_jump.md R282. -/
  | jset32K (dst : RegNum) (off : Offset) (imm : Imm)
  /-- `JSET32_X`, 43_jump.md R283. -/
  | jset32X (dst src : RegNum) (off : Offset)
  /-- `JNE64_K`, 43_jump.md R284. -/
  | jne64K (dst : RegNum) (off : Offset) (imm : Imm)
  /-- `JNE64_X`, 43_jump.md R285. -/
  | jne64X (dst src : RegNum) (off : Offset)
  /-- `JNE32_K`, 43_jump.md R286. -/
  | jne32K (dst : RegNum) (off : Offset) (imm : Imm)
  /-- `JNE32_X`, 43_jump.md R287. -/
  | jne32X (dst src : RegNum) (off : Offset)
  /-- `JSGT64_K`, 43_jump.md R288. -/
  | jsgt64K (dst : RegNum) (off : Offset) (imm : Imm)
  /-- `JSGT64_X`, 43_jump.md R289. -/
  | jsgt64X (dst src : RegNum) (off : Offset)
  /-- `JSGT32_K`, 43_jump.md R290. -/
  | jsgt32K (dst : RegNum) (off : Offset) (imm : Imm)
  /-- `JSGT32_X`, 43_jump.md R291. -/
  | jsgt32X (dst src : RegNum) (off : Offset)
  /-- `JSGE64_K`, 43_jump.md R292. -/
  | jsge64K (dst : RegNum) (off : Offset) (imm : Imm)
  /-- `JSGE64_X`, 43_jump.md R293. -/
  | jsge64X (dst src : RegNum) (off : Offset)
  /-- `JSGE32_K`, 43_jump.md R294. -/
  | jsge32K (dst : RegNum) (off : Offset) (imm : Imm)
  /-- `JSGE32_X`, 43_jump.md R295. -/
  | jsge32X (dst src : RegNum) (off : Offset)
  /-- `JLT64_K`, 43_jump.md R296. -/
  | jlt64K (dst : RegNum) (off : Offset) (imm : Imm)
  /-- `JLT64_X`, 43_jump.md R297. -/
  | jlt64X (dst src : RegNum) (off : Offset)
  /-- `JLT32_K`, 43_jump.md R298. -/
  | jlt32K (dst : RegNum) (off : Offset) (imm : Imm)
  /-- `JLT32_X`, 43_jump.md R299. -/
  | jlt32X (dst src : RegNum) (off : Offset)
  /-- `JLE64_K`, 43_jump.md R300. -/
  | jle64K (dst : RegNum) (off : Offset) (imm : Imm)
  /-- `JLE64_X`, 43_jump.md R301. -/
  | jle64X (dst src : RegNum) (off : Offset)
  /-- `JLE32_K`, 43_jump.md R302. -/
  | jle32K (dst : RegNum) (off : Offset) (imm : Imm)
  /-- `JLE32_X`, 43_jump.md R303. -/
  | jle32X (dst src : RegNum) (off : Offset)
  /-- `JSLT64_K`, 43_jump.md R304. -/
  | jslt64K (dst : RegNum) (off : Offset) (imm : Imm)
  /-- `JSLT64_X`, 43_jump.md R305. -/
  | jslt64X (dst src : RegNum) (off : Offset)
  /-- `JSLT32_K`, 43_jump.md R306. -/
  | jslt32K (dst : RegNum) (off : Offset) (imm : Imm)
  /-- `JSLT32_X`, 43_jump.md R307. -/
  | jslt32X (dst src : RegNum) (off : Offset)
  /-- `JSLE64_K`, 43_jump.md R308. -/
  | jsle64K (dst : RegNum) (off : Offset) (imm : Imm)
  /-- `JSLE64_X`, 43_jump.md R309. -/
  | jsle64X (dst src : RegNum) (off : Offset)
  /-- `JSLE32_K`, 43_jump.md R310. -/
  | jsle32K (dst : RegNum) (off : Offset) (imm : Imm)
  /-- `JSLE32_X`, 43_jump.md R311. -/
  | jsle32X (dst src : RegNum) (off : Offset)
  /-- `JA`, 43_jump.md R266. -/
  | ja (off : Offset)
  /-- `JA32`, 43_jump.md R267. -/
  | ja32 (imm : Imm)
  /-- `CALL_HELPER`, 44_call_exit.md R321. -/
  | callHelper (imm : Imm)
  /-- `CALL_LOCAL`, 44_call_exit.md R322. -/
  | callLocal (imm : Imm)
  /-- `CALL_BTF`, 44_call_exit.md R323. -/
  | callBtf (imm : Imm)
  /-- `EXIT`, 44_call_exit.md R324. -/
  | exit
  /-- `LDX_W`, 45_load_store.md R343. -/
  | ldxW (dst src : RegNum) (off : Offset)
  /-- `LDX_H`, 45_load_store.md R344. -/
  | ldxH (dst src : RegNum) (off : Offset)
  /-- `LDX_B`, 45_load_store.md R345. -/
  | ldxB (dst src : RegNum) (off : Offset)
  /-- `LDX_DW`, 45_load_store.md R346. -/
  | ldxDw (dst src : RegNum) (off : Offset)
  /-- `ST_W`, 45_load_store.md R347. -/
  | stW (dst : RegNum) (off : Offset) (imm : Imm)
  /-- `ST_H`, 45_load_store.md R348. -/
  | stH (dst : RegNum) (off : Offset) (imm : Imm)
  /-- `ST_B`, 45_load_store.md R349. -/
  | stB (dst : RegNum) (off : Offset) (imm : Imm)
  /-- `ST_DW`, 45_load_store.md R350. -/
  | stDw (dst : RegNum) (off : Offset) (imm : Imm)
  /-- `STX_W`, 45_load_store.md R351. -/
  | stxW (dst src : RegNum) (off : Offset)
  /-- `STX_H`, 45_load_store.md R352. -/
  | stxH (dst src : RegNum) (off : Offset)
  /-- `STX_B`, 45_load_store.md R353. -/
  | stxB (dst src : RegNum) (off : Offset)
  /-- `STX_DW`, 45_load_store.md R354. -/
  | stxDw (dst src : RegNum) (off : Offset)
  /-- `LDXS_W`, 45_load_store.md R356. -/
  | ldxsW (dst src : RegNum) (off : Offset)
  /-- `LDXS_H`, 45_load_store.md R357. -/
  | ldxsH (dst src : RegNum) (off : Offset)
  /-- `LDXS_B`, 45_load_store.md R358. -/
  | ldxsB (dst src : RegNum) (off : Offset)
  /-- `ATOMIC_ADD32`, 46_atomic.md R379. -/
  | atomicAdd32 (dst src : RegNum) (off : Offset)
  /-- `ATOMIC_FETCH_ADD32`, 46_atomic.md R380. -/
  | atomicFetchAdd32 (dst src : RegNum) (off : Offset)
  /-- `ATOMIC_OR32`, 46_atomic.md R381. -/
  | atomicOr32 (dst src : RegNum) (off : Offset)
  /-- `ATOMIC_FETCH_OR32`, 46_atomic.md R382. -/
  | atomicFetchOr32 (dst src : RegNum) (off : Offset)
  /-- `ATOMIC_AND32`, 46_atomic.md R383. -/
  | atomicAnd32 (dst src : RegNum) (off : Offset)
  /-- `ATOMIC_FETCH_AND32`, 46_atomic.md R384. -/
  | atomicFetchAnd32 (dst src : RegNum) (off : Offset)
  /-- `ATOMIC_XOR32`, 46_atomic.md R385. -/
  | atomicXor32 (dst src : RegNum) (off : Offset)
  /-- `ATOMIC_FETCH_XOR32`, 46_atomic.md R386. -/
  | atomicFetchXor32 (dst src : RegNum) (off : Offset)
  /-- `ATOMIC_XCHG32`, 46_atomic.md R387. -/
  | atomicXchg32 (dst src : RegNum) (off : Offset)
  /-- `ATOMIC_CMPXCHG32`, 46_atomic.md R388. -/
  | atomicCmpxchg32 (dst src : RegNum) (off : Offset)
  /-- `ATOMIC_ADD64`, 46_atomic.md R389. -/
  | atomicAdd64 (dst src : RegNum) (off : Offset)
  /-- `ATOMIC_FETCH_ADD64`, 46_atomic.md R390. -/
  | atomicFetchAdd64 (dst src : RegNum) (off : Offset)
  /-- `ATOMIC_OR64`, 46_atomic.md R391. -/
  | atomicOr64 (dst src : RegNum) (off : Offset)
  /-- `ATOMIC_FETCH_OR64`, 46_atomic.md R392. -/
  | atomicFetchOr64 (dst src : RegNum) (off : Offset)
  /-- `ATOMIC_AND64`, 46_atomic.md R393. -/
  | atomicAnd64 (dst src : RegNum) (off : Offset)
  /-- `ATOMIC_FETCH_AND64`, 46_atomic.md R394. -/
  | atomicFetchAnd64 (dst src : RegNum) (off : Offset)
  /-- `ATOMIC_XOR64`, 46_atomic.md R395. -/
  | atomicXor64 (dst src : RegNum) (off : Offset)
  /-- `ATOMIC_FETCH_XOR64`, 46_atomic.md R396. -/
  | atomicFetchXor64 (dst src : RegNum) (off : Offset)
  /-- `ATOMIC_XCHG64`, 46_atomic.md R397. -/
  | atomicXchg64 (dst src : RegNum) (off : Offset)
  /-- `ATOMIC_CMPXCHG64`, 46_atomic.md R398. -/
  | atomicCmpxchg64 (dst src : RegNum) (off : Offset)
  /-- `LDDW`, 47_imm64.md R401. -/
  | lddw (dst : RegNum) (imm nextImm : Imm)
  /-- `LD_MAP_FD`, 47_imm64.md R402. -/
  | ldMapFd (dst : RegNum) (imm : Imm)
  /-- `LD_MAP_VAL_FD`, 47_imm64.md R403. -/
  | ldMapValFd (dst : RegNum) (imm nextImm : Imm)
  /-- `LD_VAR_ADDR`, 47_imm64.md R404. -/
  | ldVarAddr (dst : RegNum) (imm : Imm)
  /-- `LD_CODE_ADDR`, 47_imm64.md R405. -/
  | ldCodeAddr (dst : RegNum) (imm : Imm)
  /-- `LD_MAP_IDX`, 47_imm64.md R406. -/
  | ldMapIdx (dst : RegNum) (imm : Imm)
  /-- `LD_MAP_VAL_IDX`, 47_imm64.md R407. -/
  | ldMapValIdx (dst : RegNum) (imm nextImm : Imm)
  /-- `IMM64_HI`, 47_imm64.md R408. -/
  | imm64Hi (nextImm : Imm)
  /-- `LD_ABS_W`, 48_packet.md R422. -/
  | ldAbsW (imm : Imm)
  /-- `LD_ABS_H`, 48_packet.md R423. -/
  | ldAbsH (imm : Imm)
  /-- `LD_ABS_B`, 48_packet.md R424. -/
  | ldAbsB (imm : Imm)
  /-- `LD_IND_W`, 48_packet.md R425. -/
  | ldIndW (src : RegNum) (imm : Imm)
  /-- `LD_IND_H`, 48_packet.md R426. -/
  | ldIndH (src : RegNum) (imm : Imm)
  /-- `LD_IND_B`, 48_packet.md R427. -/
  | ldIndB (src : RegNum) (imm : Imm)
  deriving DecidableEq, Repr

end Sys2Proof
end

