-- ==== Sys2Proof/WellFormed.lean ====
section
/-! DEFINITION. The well-formed instructions: every field that names a register holds 0 to 10 (30_encoding.md R109).
The other operand fields take every value (R108, R127). -/

namespace Sys2Proof

/-- A register field names a register (30_encoding.md R109). -/
def isReg (r : RegNum) : Bool := decide (r.toNat ≤ 10)

/-- Every register field of the instruction names a register (30_encoding.md R109). -/
def Instr.wellFormed : Instr → Bool
  | .add32K dst _ => isReg dst
  | .add32X dst src => isReg dst && isReg src
  | .add64K dst _ => isReg dst
  | .add64X dst src => isReg dst && isReg src
  | .sub32K dst _ => isReg dst
  | .sub32X dst src => isReg dst && isReg src
  | .sub64K dst _ => isReg dst
  | .sub64X dst src => isReg dst && isReg src
  | .mul32K dst _ => isReg dst
  | .mul32X dst src => isReg dst && isReg src
  | .mul64K dst _ => isReg dst
  | .mul64X dst src => isReg dst && isReg src
  | .div32K dst _ => isReg dst
  | .div32X dst src => isReg dst && isReg src
  | .div64K dst _ => isReg dst
  | .div64X dst src => isReg dst && isReg src
  | .sdiv32K dst _ => isReg dst
  | .sdiv32X dst src => isReg dst && isReg src
  | .sdiv64K dst _ => isReg dst
  | .sdiv64X dst src => isReg dst && isReg src
  | .or32K dst _ => isReg dst
  | .or32X dst src => isReg dst && isReg src
  | .or64K dst _ => isReg dst
  | .or64X dst src => isReg dst && isReg src
  | .and32K dst _ => isReg dst
  | .and32X dst src => isReg dst && isReg src
  | .and64K dst _ => isReg dst
  | .and64X dst src => isReg dst && isReg src
  | .lsh32K dst _ => isReg dst
  | .lsh32X dst src => isReg dst && isReg src
  | .lsh64K dst _ => isReg dst
  | .lsh64X dst src => isReg dst && isReg src
  | .rsh32K dst _ => isReg dst
  | .rsh32X dst src => isReg dst && isReg src
  | .rsh64K dst _ => isReg dst
  | .rsh64X dst src => isReg dst && isReg src
  | .neg32 dst => isReg dst
  | .neg64 dst => isReg dst
  | .mod32K dst _ => isReg dst
  | .mod32X dst src => isReg dst && isReg src
  | .mod64K dst _ => isReg dst
  | .mod64X dst src => isReg dst && isReg src
  | .smod32K dst _ => isReg dst
  | .smod32X dst src => isReg dst && isReg src
  | .smod64K dst _ => isReg dst
  | .smod64X dst src => isReg dst && isReg src
  | .xor32K dst _ => isReg dst
  | .xor32X dst src => isReg dst && isReg src
  | .xor64K dst _ => isReg dst
  | .xor64X dst src => isReg dst && isReg src
  | .mov32K dst _ => isReg dst
  | .mov32X dst src => isReg dst && isReg src
  | .mov64K dst _ => isReg dst
  | .mov64X dst src => isReg dst && isReg src
  | .movsx32_8 dst src => isReg dst && isReg src
  | .movsx32_16 dst src => isReg dst && isReg src
  | .movsx64_8 dst src => isReg dst && isReg src
  | .movsx64_16 dst src => isReg dst && isReg src
  | .movsx64_32 dst src => isReg dst && isReg src
  | .arsh32K dst _ => isReg dst
  | .arsh32X dst src => isReg dst && isReg src
  | .arsh64K dst _ => isReg dst
  | .arsh64X dst src => isReg dst && isReg src
  | .le16 dst => isReg dst
  | .le32 dst => isReg dst
  | .le64 dst => isReg dst
  | .be16 dst => isReg dst
  | .be32 dst => isReg dst
  | .be64 dst => isReg dst
  | .bswap16 dst => isReg dst
  | .bswap32 dst => isReg dst
  | .bswap64 dst => isReg dst
  | .jeq64K dst _ _ => isReg dst
  | .jeq64X dst src _ => isReg dst && isReg src
  | .jeq32K dst _ _ => isReg dst
  | .jeq32X dst src _ => isReg dst && isReg src
  | .jgt64K dst _ _ => isReg dst
  | .jgt64X dst src _ => isReg dst && isReg src
  | .jgt32K dst _ _ => isReg dst
  | .jgt32X dst src _ => isReg dst && isReg src
  | .jge64K dst _ _ => isReg dst
  | .jge64X dst src _ => isReg dst && isReg src
  | .jge32K dst _ _ => isReg dst
  | .jge32X dst src _ => isReg dst && isReg src
  | .jset64K dst _ _ => isReg dst
  | .jset64X dst src _ => isReg dst && isReg src
  | .jset32K dst _ _ => isReg dst
  | .jset32X dst src _ => isReg dst && isReg src
  | .jne64K dst _ _ => isReg dst
  | .jne64X dst src _ => isReg dst && isReg src
  | .jne32K dst _ _ => isReg dst
  | .jne32X dst src _ => isReg dst && isReg src
  | .jsgt64K dst _ _ => isReg dst
  | .jsgt64X dst src _ => isReg dst && isReg src
  | .jsgt32K dst _ _ => isReg dst
  | .jsgt32X dst src _ => isReg dst && isReg src
  | .jsge64K dst _ _ => isReg dst
  | .jsge64X dst src _ => isReg dst && isReg src
  | .jsge32K dst _ _ => isReg dst
  | .jsge32X dst src _ => isReg dst && isReg src
  | .jlt64K dst _ _ => isReg dst
  | .jlt64X dst src _ => isReg dst && isReg src
  | .jlt32K dst _ _ => isReg dst
  | .jlt32X dst src _ => isReg dst && isReg src
  | .jle64K dst _ _ => isReg dst
  | .jle64X dst src _ => isReg dst && isReg src
  | .jle32K dst _ _ => isReg dst
  | .jle32X dst src _ => isReg dst && isReg src
  | .jslt64K dst _ _ => isReg dst
  | .jslt64X dst src _ => isReg dst && isReg src
  | .jslt32K dst _ _ => isReg dst
  | .jslt32X dst src _ => isReg dst && isReg src
  | .jsle64K dst _ _ => isReg dst
  | .jsle64X dst src _ => isReg dst && isReg src
  | .jsle32K dst _ _ => isReg dst
  | .jsle32X dst src _ => isReg dst && isReg src
  | .ja _ => true
  | .ja32 _ => true
  | .callHelper _ => true
  | .callLocal _ => true
  | .callBtf _ => true
  | .exit => true
  | .ldxW dst src _ => isReg dst && isReg src
  | .ldxH dst src _ => isReg dst && isReg src
  | .ldxB dst src _ => isReg dst && isReg src
  | .ldxDw dst src _ => isReg dst && isReg src
  | .stW dst _ _ => isReg dst
  | .stH dst _ _ => isReg dst
  | .stB dst _ _ => isReg dst
  | .stDw dst _ _ => isReg dst
  | .stxW dst src _ => isReg dst && isReg src
  | .stxH dst src _ => isReg dst && isReg src
  | .stxB dst src _ => isReg dst && isReg src
  | .stxDw dst src _ => isReg dst && isReg src
  | .ldxsW dst src _ => isReg dst && isReg src
  | .ldxsH dst src _ => isReg dst && isReg src
  | .ldxsB dst src _ => isReg dst && isReg src
  | .atomicAdd32 dst src _ => isReg dst && isReg src
  | .atomicFetchAdd32 dst src _ => isReg dst && isReg src
  | .atomicOr32 dst src _ => isReg dst && isReg src
  | .atomicFetchOr32 dst src _ => isReg dst && isReg src
  | .atomicAnd32 dst src _ => isReg dst && isReg src
  | .atomicFetchAnd32 dst src _ => isReg dst && isReg src
  | .atomicXor32 dst src _ => isReg dst && isReg src
  | .atomicFetchXor32 dst src _ => isReg dst && isReg src
  | .atomicXchg32 dst src _ => isReg dst && isReg src
  | .atomicCmpxchg32 dst src _ => isReg dst && isReg src
  | .atomicAdd64 dst src _ => isReg dst && isReg src
  | .atomicFetchAdd64 dst src _ => isReg dst && isReg src
  | .atomicOr64 dst src _ => isReg dst && isReg src
  | .atomicFetchOr64 dst src _ => isReg dst && isReg src
  | .atomicAnd64 dst src _ => isReg dst && isReg src
  | .atomicFetchAnd64 dst src _ => isReg dst && isReg src
  | .atomicXor64 dst src _ => isReg dst && isReg src
  | .atomicFetchXor64 dst src _ => isReg dst && isReg src
  | .atomicXchg64 dst src _ => isReg dst && isReg src
  | .atomicCmpxchg64 dst src _ => isReg dst && isReg src
  | .lddw dst _ _ => isReg dst
  | .ldMapFd dst _ => isReg dst
  | .ldMapValFd dst _ _ => isReg dst
  | .ldVarAddr dst _ => isReg dst
  | .ldCodeAddr dst _ => isReg dst
  | .ldMapIdx dst _ => isReg dst
  | .ldMapValIdx dst _ _ => isReg dst
  | .imm64Hi _ => true
  | .ldAbsW _ => true
  | .ldAbsH _ => true
  | .ldAbsB _ => true
  | .ldIndW src _ => isReg src
  | .ldIndH src _ => isReg src
  | .ldIndB src _ => isReg src

end Sys2Proof
end

