-- ==== Sys2Proof/Machine/Ops.lean ====
section
/-! DEFINITION. The named operations over registers, memory, the environment and the platform, and raising a fault. -/

namespace Sys2Proof.Machine

/-! ## Registers and the program counter -/

/-- The content of a register: a value, or none (10_state.md R33). Numbers above 10 name no register. -/
def State.reg (s : State) (r : RegNum) : Option Word := (s.x[r.toNat]?).join

/-- Give a register a content; `none` leaves it without a value, which only the platform can do (60_exceptions.md
R435). -/
def State.putReg (s : State) (r : RegNum) (v : Option Word) : State := { s with x := s.x.setIfInBounds r.toNat v }

/-- `x[i] <- v` (00_scope.md section 6.5). Every register is writable (10_state.md R34). -/
def State.setReg (s : State) (r : RegNum) (v : Word) : State := s.putReg r (some v)

/-- `pc <- pc + n` (10_state.md R37). -/
def State.advance (s : State) (n : Int) : State := { s with pc := s.pc + n }

/-- `pc <- t` (10_state.md R36, R39): an integer, never wrapped. -/
def State.jump (s : State) (t : Int) : State := { s with pc := t }

/-! ## Faults -/

/-- `raise Fault(kind, info)` (60_exceptions.md R431): the status becomes `Faulted`, nothing else changes. There is no
handler and no saved state, and so no return from a fault (R440). -/
def raise (k : FaultKind) (s : State) : Result := .next { s with status := .faulted k }

/-- The conformance group is supported: `base32` always, and the groups are closed under "includes" (00_scope.md R3,
R5). -/
def supports (groups : List Group) : Group → Bool
  | .base32 => true
  | .base64 => groups.contains .base64
  | .atomic32 => groups.contains .atomic32 || groups.contains .atomic64
  | .atomic64 => groups.contains .atomic64
  | .divmul32 => groups.contains .divmul32 || groups.contains .divmul64
  | .divmul64 => groups.contains .divmul64
  | .packet => groups.contains .packet

/-- Steps 3 and 5 of 30_encoding.md R112, before the rule of an instruction of the group `g` whose register fields are
`regs`: a register number above 10 is illegal (R109), an unsupported group is `UnsupportedInstruction`
(60_exceptions.md R436). -/
def issue (g : Group) (regs : List RegNum) (s : State) (body : Result) : Result :=
  if regs.all isReg then
    (if supports s.params.groups g then body else raise (.unsupportedInstruction s.pc) s)
  else raise (.illegalInstruction s.pc) s

/-- `x[i]` read (10_state.md R33): a register without a value raises `UninitRegister`. -/
def withReg (r : RegNum) (s : State) (body : Word → Result) : Result :=
  match s.reg r with
  | some v => body v
  | none => raise (.uninitRegister r) s

/-! ## Bytes of memory -/

/-- One byte of memory (20_memory.md R60). -/
def Memory.read (m : Memory) (a : Nat) : Byte := (m.lookup a).getD blankByte

/-- Write one byte, keeping the canonical form: addresses rising, no blank byte listed. -/
def Memory.write : Memory → Nat → Byte → Memory
  | [], a, b => if b = blankByte then [] else [(a, b)]
  | (c, d) :: m, a, b =>
    if a < c then (if b = blankByte then (c, d) :: m else (a, b) :: (c, d) :: m)
    else if a = c then (if b = blankByte then m else (a, b) :: m)
    else (c, d) :: Memory.write m a b

/-- The addresses are at least `lo`, rise, and are 64-bit addresses; no blank byte is listed. -/
def Memory.wfFrom (lo : Nat) : Memory → Bool
  | [] => true
  | (a, b) :: m => decide (lo ≤ a) && decide (a < 2 ^ 64) && b != blankByte && Memory.wfFrom (a + 1) m

/-- The canonical form of memory. -/
def Memory.wf (m : Memory) : Bool := Memory.wfFrom 0 m

/-- The `n` bytes at `a .. a + n - 1`. -/
def readBytes (m : Memory) (a n : Nat) : List Byte := (List.range n).map fun k => m.read (a + k)

/-- Write bytes at `a`, `a + 1`, and so on. -/
def writeBytes (m : Memory) (a : Nat) : List Byte → Memory
  | [] => m
  | b :: bs => writeBytes (m.write a b) (a + 1) bs

/-- The number whose bytes these are, the first the least significant. -/
def leValue : List Byte → Nat
  | [] => 0
  | b :: bs => b.toNat + 256 * leValue bs

/-- The value of bytes that stand at rising addresses, zero-extended (20_memory.md R66). -/
def valueOf (e : Endian) (bs : List Byte) : Word :=
  match e with
  | .little => BitVec.ofNat 64 (leValue bs)
  | .big => BitVec.ofNat 64 (leValue bs.reverse)

/-- The low `n` bytes of a value, in the order they stand at rising addresses (20_memory.md R67). -/
def bytesOf (e : Endian) (n : Nat) (v : Word) : List Byte :=
  match e with
  | .little => (List.range n).map fun k => v.extractLsb' (8 * k) 8
  | .big => (List.range n).map fun k => v.extractLsb' (8 * (n - 1 - k)) 8

/-! ## Which accesses are performed -/

/-- The grant covers the access. -/
def covers (g : Grant) (a : Word) (n : Nat) (k : AccessKind) : Bool :=
  g.widths.contains n && g.kinds.contains k && decide (g.base.toNat ≤ a.toNat)
    && decide (a.toNat + n ≤ g.base.toNat + g.size)

/-- `MemAdmit(addr, n, kind)` (20_memory.md R62); an access past the last address is never admitted (R64). -/
def admits (p : Params) (a : Word) (n : Nat) (k : AccessKind) : Bool :=
  decide (a.toNat + n ≤ 2 ^ 64) && p.grants.any fun g => covers g a n k

/-- `misaligned(addr, n, kind)` (20_memory.md R70). -/
def misaligned (p : Params) (a : Word) (n : Nat) (k : AccessKind) : Bool :=
  a.toNat % n != 0 && (k == .atomic || !p.allowMisaligned)

/-- The access raises no `MemoryFault` (60_exceptions.md R437). -/
def accessible (p : Params) (a : Word) (n : Nat) (k : AccessKind) : Bool := admits p a n k && !misaligned p a n k

/-! ## The environment (20_memory.md R73, R74) -/

/-- `Shared(addr)`. -/
def isShared (p : Params) (a : Nat) : Bool :=
  p.shared.any fun r => decide (r.base.toNat ≤ a) && decide (a < r.base.toNat + r.size)

/-- The environment writes one byte; a byte that is not shared it never touches (20_memory.md R74). -/
def envWrite (p : Params) (m : Memory) (w : Word × Byte) : Memory :=
  if isShared p w.1.toNat then m.write w.1.toNat w.2 else m

/-- The environment's next turn (assumption log entry 10). -/
def Environment.next (e : Environment) : EnvTurn :=
  match e.coming with
  | [] => Config.freeTurn e.taken
  | t :: _ => t

/-- The environment after its next turn: it never runs out of turns. -/
def Environment.rest (e : Environment) : Environment :=
  match e.coming with
  | [] => { e with taken := e.taken + 1 }
  | _ :: ts => { e with coming := ts }

/-- The environment after `n` turns. -/
def Environment.after : Nat → Environment → Environment
  | 0, e => e
  | n + 1, e => Environment.after n e.rest

/-- The environment takes its next turn, between two events of the run (20_memory.md R74). Where no byte is shared there
is nothing it can do. -/
def envTurn (s : State) : State :=
  match s.params.shared with
  | [] => s
  | _ :: _ => { s with mem := s.env.next.foldl (envWrite s.params) s.mem, env := s.env.rest }

/-- The plain access is `n` single-byte accesses between which the environment may act (20_memory.md R73): more than
one byte, some byte shared, and not an aligned access under `PLAIN_ACCESS_ATOMIC`. -/
def tears (p : Params) (a : Word) (n : Nat) : Bool :=
  decide (1 < n) && !(p.plainAccessAtomic && a.toNat % n == 0)
    && (List.range n).any fun k => isShared p (a.toNat + k)

/-- Single-byte reads at `a`, `a + 1`, .., the environment acting before each and after the last (assumption log
entry 11). -/
def readTorn : Nat → Nat → State → List Byte × State
  | 0, _, s => ([], envTurn s)
  | n + 1, a, s => ((envTurn s).mem.read a :: (readTorn n (a + 1) (envTurn s)).1, (readTorn n (a + 1) (envTurn s)).2)

/-- Single-byte writes at `a`, `a + 1`, .., the environment acting before each and after the last (assumption log
entry 11). -/
def writeTorn : List Byte → Nat → State → State
  | [], _, s => envTurn s
  | b :: bs, a, s => writeTorn bs (a + 1) { envTurn s with mem := (envTurn s).mem.write a b }

/-! ## Memory accesses -/

/-- `MemRead(addr, n)` (20_memory.md R66, R73): the value, zero-extended, and the state after the reads. -/
def memRead (a : Word) (n : Nat) (s : State) (body : Word → State → Result) : Result :=
  if accessible s.params a n .load then
    (if tears s.params a n then
      body (valueOf s.params.endian (readTorn n a.toNat s).1) (readTorn n a.toNat s).2
    else body (valueOf s.params.endian (readBytes s.mem a.toNat n)) s)
  else raise (.memoryFault a n .load) s

/-- The state after the low `n` bytes of `v` are stored at `a` as one event. -/
def storeAt (a : Word) (n : Nat) (v : Word) (s : State) : State :=
  { s with mem := writeBytes s.mem a.toNat (bytesOf s.params.endian n v) }

/-- `MemWrite(addr, n, v)` (20_memory.md R67, R73). The check comes before any byte is written. -/
def memWrite (a : Word) (n : Nat) (v : Word) (s : State) (body : State → Result) : Result :=
  if accessible s.params a n .store then
    (if tears s.params a n then body (writeTorn (bytesOf s.params.endian n v) a.toNat s)
    else body (storeAt a n v s))
  else raise (.memoryFault a n .store) s

/-- `AtomicRMW(addr, n, f)` (20_memory.md R72, 46_atomic.md R377): one event; `none` writes nothing. -/
def atomicRmw (a : Word) (n : Nat) (f : Word → Option Word) (s : State) (body : Word → State → Result) : Result :=
  if accessible s.params a n .atomic then
    match f (valueOf s.params.endian (readBytes s.mem a.toNat n)) with
    | some v => body (valueOf s.params.endian (readBytes s.mem a.toNat n)) (storeAt a n v s)
    | none => body (valueOf s.params.endian (readBytes s.mem a.toNat n)) s
  else raise (.memoryFault a n .atomic) s

/-! ## The platform -/

/-- The rule applies in the state: its registers and bytes have the contents it asks for. -/
def applies (s : State) (r : PlatformRule) : Bool :=
  r.regs.all (fun w => s.reg w.1 == w.2) && r.bytes.all (fun w => s.mem.read w.1.toNat == w.2)

/-- The answers the relation of the function gives for the registers and memory of the state (44_call_exit.md R321);
none where the platform has no such function (10_state.md R45). -/
def answersOf (s : State) (fn : PlatformFn) : List Answer :=
  match s.params.platform.find? fun e => e.fn == fn with
  | some e => (e.rules.filter (applies s)).map (·.answer)
  | none => []

/-- One of the answers, which one is free (assumption log entry 8); none where there is none. -/
def pick : List Answer → Nat → Option Answer
  | [], _ => none
  | [a], _ => some a
  | a :: b :: rest, n => (a :: b :: rest)[Config.freeChoice n % (rest.length + 2)]?

/-- The platform's answer to a call of the function now. -/
def answerOf (s : State) (fn : PlatformFn) : Option Answer := pick (answersOf s fn) s.draws

/-- The state after the platform has given registers and bytes their content (44_call_exit.md R321). -/
def applyAnswer (regs : List (RegNum × Option Word)) (bytes : List (Word × Byte)) (s : State) : State :=
  { regs.foldl (fun t w => t.putReg w.1 w.2) s with
    mem := bytes.foldl (fun m w => m.write w.1.toNat w.2) s.mem
    draws := s.draws + 1 }

/-- A call of a platform function (44_call_exit.md R321, R323; 48_packet.md R428): the platform's answer, then
`pc <- pc + 1`; no such function, no answer, or a call that fails, is `PlatformFault` (60_exceptions.md R438). -/
def platformCall (fn : PlatformFn) (s : State) : Result :=
  match answerOf s fn with
  | some (.returns regs bytes) => .next ((applyAnswer regs bytes s).advance 1)
  | _ => raise (.platformFault (.call fn)) s

/-- A lookup of the platform (10_state.md R47 to R49): "none" is `PlatformFault` (47_imm64.md R409). -/
def withLookup (found : Option Word) (query : PlatformQuery) (s : State) (body : Word → Result) : Result :=
  match found with
  | some v => body v
  | none => raise (.platformFault query) s

end Sys2Proof.Machine
end

