-- ==== Sys2Proof/Machine/Operands.lean ====
section
/-! DEFINITION. The operands of the instructions and the forms they take: how an instruction of each form reads its
operands, and what it does with the result. A family's meanings are one line each over these forms. -/

namespace Sys2Proof.Machine

/-! ## Operand assembly (30_encoding.md section 4) -/

/-- The operand of a 32-bit operation (30_encoding.md R114): `lo32`. -/
def lo32 (v : Word) : BitVec 32 := v.setWidth 32

/-- A 32-bit result as a register holds it (40_alu_add_to_rsh.md R151). -/
def zext32 (v : BitVec 32) : Word := v.setWidth 64

/-- The immediate operand of a 64-bit operation (30_encoding.md R113). -/
def sextImm (imm : Imm) : Word := imm.signExtend 64

/-- The effective address (20_memory.md R63, 30_encoding.md R117). -/
def effAddr (base : Word) (off : Offset) : Word := base + off.signExtend 64

/-- The jump target (43_jump.md R260, 30_encoding.md R116): in the integers. -/
def target (pc displacement : Int) : Int := pc + 1 + displacement

/-- The 64-bit immediate (30_encoding.md R119, 47_imm64.md R401). -/
def imm64 (imm nextImm : Imm) : Word := nextImm ++ imm

/-- The low `8n` bits, sign-extended (45_load_store.md R355). -/
def sextBytes (n : Nat) (v : Word) : Word := (v.setWidth (8 * n)).signExtend 64

/-! ## How an instruction ends -/

/-- Write the result and go on to the next instruction (10_state.md R37). -/
def finish (dst : RegNum) (v : Word) (s : State) : Result := .next ((s.setReg dst v).advance 1)

/-- A jump, taken or not (43_jump.md R260, R263). -/
def branch (taken : Bool) (off : Offset) (s : State) : Result :=
  .next (if taken then s.jump (target s.pc off.toInt) else s.advance 1)

/-! ## Arithmetic forms (40_alu_add_to_rsh.md R150, R151, R155): `dst` is read before `src` -/

/-- Class ALU, source K. -/
def alu32K (g : Group) (op : BitVec 32 → BitVec 32 → BitVec 32) (dst : RegNum) (imm : Imm) (s : State) : Result :=
  issue g [dst] s <| withReg dst s fun a => finish dst (zext32 (op (lo32 a) imm)) s

/-- Class ALU, source X. -/
def alu32X (g : Group) (op : BitVec 32 → BitVec 32 → BitVec 32) (dst src : RegNum) (s : State) : Result :=
  issue g [dst, src] s <| withReg dst s fun a => withReg src s fun b =>
    finish dst (zext32 (op (lo32 a) (lo32 b))) s

/-- Class ALU64, source K. -/
def alu64K (g : Group) (op : Word → Word → Word) (dst : RegNum) (imm : Imm) (s : State) : Result :=
  issue g [dst] s <| withReg dst s fun a => finish dst (op a (sextImm imm)) s

/-- Class ALU64, source X. -/
def alu64X (g : Group) (op : Word → Word → Word) (dst src : RegNum) (s : State) : Result :=
  issue g [dst, src] s <| withReg dst s fun a => withReg src s fun b => finish dst (op a b) s

/-- The destination register is the one operand (NEG and the byte swaps; 42_byteswap.md R244). -/
def unary (g : Group) (op : Word → Word) (dst : RegNum) (s : State) : Result :=
  issue g [dst] s <| withReg dst s fun a => finish dst (op a) s

/-- The source register is the one operand (MOV and MOVSX with source X). -/
def moveX (g : Group) (op : Word → Word) (dst src : RegNum) (s : State) : Result :=
  issue g [dst, src] s <| withReg src s fun b => finish dst (op b) s

/-- The immediate is the one operand (MOV with source K). -/
def moveK (g : Group) (v : Word) (dst : RegNum) (s : State) : Result := issue g [dst] s <| finish dst v s

/-! ## Conditional jumps (43_jump.md R261, R263): both registers are read whether or not the jump is taken -/

/-- Class JMP, source K. -/
def jump64K (cond : Word → Word → Bool) (dst : RegNum) (off : Offset) (imm : Imm) (s : State) : Result :=
  issue .base64 [dst] s <| withReg dst s fun a => branch (cond a (sextImm imm)) off s

/-- Class JMP, source X. -/
def jump64X (cond : Word → Word → Bool) (dst src : RegNum) (off : Offset) (s : State) : Result :=
  issue .base64 [dst, src] s <| withReg dst s fun a => withReg src s fun b => branch (cond a b) off s

/-- Class JMP32, source K. -/
def jump32K (cond : BitVec 32 → BitVec 32 → Bool) (dst : RegNum) (off : Offset) (imm : Imm) (s : State) : Result :=
  issue .base32 [dst] s <| withReg dst s fun a => branch (cond (lo32 a) imm) off s

/-- Class JMP32, source X. -/
def jump32X (cond : BitVec 32 → BitVec 32 → Bool) (dst src : RegNum) (off : Offset) (s : State) : Result :=
  issue .base32 [dst, src] s <| withReg dst s fun a => withReg src s fun b => branch (cond (lo32 a) (lo32 b)) off s

/-! ## Loads and stores (45_load_store.md R340, R341) -/

/-- A load of `n` bytes; `ext` extends the value read. The destination is not read. -/
def load (g : Group) (n : Nat) (ext : Word → Word) (dst src : RegNum) (off : Offset) (s : State) : Result :=
  issue g [dst, src] s <| withReg src s fun base =>
    memRead (effAddr base off) n s fun v s' => finish dst (ext v) s'

/-- A store of the low `n` bytes of the sign-extended immediate (45_load_store.md R342). -/
def storeImm (g : Group) (n : Nat) (dst : RegNum) (off : Offset) (imm : Imm) (s : State) : Result :=
  issue g [dst] s <| withReg dst s fun base =>
    memWrite (effAddr base off) n (sextImm imm) s fun s' => .next (s'.advance 1)

/-- A store of the low `n` bytes of the source register (45_load_store.md R342). -/
def storeReg (g : Group) (n : Nat) (dst src : RegNum) (off : Offset) (s : State) : Result :=
  issue g [dst, src] s <| withReg dst s fun base => withReg src s fun v =>
    memWrite (effAddr base off) n v s fun s' => .next (s'.advance 1)

/-! ## Atomic operations (46_atomic.md R372 to R378) -/

/-- A binary operation on 32-bit values, on zero-extended values (46_atomic.md R374). -/
def at32 (op : BitVec 32 → BitVec 32 → BitVec 32) (old v : Word) : Word := zext32 (op (lo32 old) (lo32 v))

/-- An atomic operation without FETCH: memory `old` becomes `op old src`, no register is written. -/
def atomicSimple (g : Group) (n : Nat) (op : Word → Word → Word) (dst src : RegNum) (off : Offset)
    (s : State) : Result :=
  issue g [dst, src] s <| withReg dst s fun base => withReg src s fun v =>
    atomicRmw (effAddr base off) n (fun old => some (op old v)) s fun _ s' => .next (s'.advance 1)

/-- An atomic operation with FETCH: the source register receives the old value, zero-extended (46_atomic.md R373,
R375). -/
def atomicFetch (g : Group) (n : Nat) (op : Word → Word → Word) (dst src : RegNum) (off : Offset)
    (s : State) : Result :=
  issue g [dst, src] s <| withReg dst s fun base => withReg src s fun v =>
    atomicRmw (effAddr base off) n (fun old => some (op old v)) s fun old s' => finish src old s'

/-- CMPXCHG (46_atomic.md R376): `same` compares the old value with r0; r0 receives the old value, zero-extended. -/
def atomicCmpxchg (g : Group) (n : Nat) (same : Word → Word → Bool) (dst src : RegNum) (off : Offset)
    (s : State) : Result :=
  issue g [dst, src] s <| withReg dst s fun base => withReg src s fun v => withReg 0 s fun c =>
    atomicRmw (effAddr base off) n (fun old => if same old c then some v else none) s
      fun old s' => finish 0 old s'

/-! ## 64-bit immediates (47_imm64.md R409, R410) -/

/-- Write the result of a wide instruction: `pc <- pc + 2`. -/
def finishWide (dst : RegNum) (v : Word) (s : State) : Result := .next ((s.setReg dst v).advance 2)

/-- A wide instruction whose value is a lookup of the platform. -/
def wideLookup (found : Option Word) (query : PlatformQuery) (dst : RegNum) (s : State) : Result :=
  issue .base64 [dst] s <| withLookup found query s fun v => finishWide dst v s

/-- A wide instruction whose value is the address of the first value of a map, plus `next_imm` (47_imm64.md R403,
R407). -/
def wideMapVal (found : Option Word) (query : PlatformQuery) (dst : RegNum) (nextImm : Imm) (s : State) : Result :=
  issue .base64 [dst] s <| withLookup found query s fun m =>
    withLookup (s.params.mapVal.lookup m) (.mapVal m) s fun v => finishWide dst (v + sextImm nextImm) s

end Sys2Proof.Machine
end

