-- ==== Sys2Proof/Machine/AluAddToRsh.lean ====
section
/-! DEFINITION. The arithmetic instructions ADD to RSH (40_alu_add_to_rsh.md). -/

namespace Sys2Proof.Machine

/-- `ADD32_K` (40_alu_add_to_rsh.md R156). -/
def execAdd32K (dst : RegNum) (imm : Imm) (s : State) : Result := alu32K .base32 aluAdd dst imm s

/-- `ADD32_X` (40_alu_add_to_rsh.md R157). -/
def execAdd32X (dst src : RegNum) (s : State) : Result := alu32X .base32 aluAdd dst src s

/-- `ADD64_K` (40_alu_add_to_rsh.md R158). -/
def execAdd64K (dst : RegNum) (imm : Imm) (s : State) : Result := alu64K .base64 aluAdd dst imm s

/-- `ADD64_X` (40_alu_add_to_rsh.md R159). -/
def execAdd64X (dst src : RegNum) (s : State) : Result := alu64X .base64 aluAdd dst src s

/-- `SUB32_K` (40_alu_add_to_rsh.md R160). -/
def execSub32K (dst : RegNum) (imm : Imm) (s : State) : Result := alu32K .base32 aluSub dst imm s

/-- `SUB32_X` (40_alu_add_to_rsh.md R161). -/
def execSub32X (dst src : RegNum) (s : State) : Result := alu32X .base32 aluSub dst src s

/-- `SUB64_K` (40_alu_add_to_rsh.md R162). -/
def execSub64K (dst : RegNum) (imm : Imm) (s : State) : Result := alu64K .base64 aluSub dst imm s

/-- `SUB64_X` (40_alu_add_to_rsh.md R163). -/
def execSub64X (dst src : RegNum) (s : State) : Result := alu64X .base64 aluSub dst src s

/-- `MUL32_K` (40_alu_add_to_rsh.md R164). -/
def execMul32K (dst : RegNum) (imm : Imm) (s : State) : Result := alu32K .divmul32 aluMul dst imm s

/-- `MUL32_X` (40_alu_add_to_rsh.md R165). -/
def execMul32X (dst src : RegNum) (s : State) : Result := alu32X .divmul32 aluMul dst src s

/-- `MUL64_K` (40_alu_add_to_rsh.md R166). -/
def execMul64K (dst : RegNum) (imm : Imm) (s : State) : Result := alu64K .divmul64 aluMul dst imm s

/-- `MUL64_X` (40_alu_add_to_rsh.md R167). -/
def execMul64X (dst src : RegNum) (s : State) : Result := alu64X .divmul64 aluMul dst src s

/-- `DIV32_K` (40_alu_add_to_rsh.md R168). -/
def execDiv32K (dst : RegNum) (imm : Imm) (s : State) : Result := alu32K .divmul32 aluDiv dst imm s

/-- `DIV32_X` (40_alu_add_to_rsh.md R169). -/
def execDiv32X (dst src : RegNum) (s : State) : Result := alu32X .divmul32 aluDiv dst src s

/-- `DIV64_K` (40_alu_add_to_rsh.md R170). -/
def execDiv64K (dst : RegNum) (imm : Imm) (s : State) : Result := alu64K .divmul64 aluDiv dst imm s

/-- `DIV64_X` (40_alu_add_to_rsh.md R171). -/
def execDiv64X (dst src : RegNum) (s : State) : Result := alu64X .divmul64 aluDiv dst src s

/-- `SDIV32_K` (40_alu_add_to_rsh.md R172). -/
def execSdiv32K (dst : RegNum) (imm : Imm) (s : State) : Result := alu32K .divmul32 aluSdiv dst imm s

/-- `SDIV32_X` (40_alu_add_to_rsh.md R173). -/
def execSdiv32X (dst src : RegNum) (s : State) : Result := alu32X .divmul32 aluSdiv dst src s

/-- `SDIV64_K` (40_alu_add_to_rsh.md R174). -/
def execSdiv64K (dst : RegNum) (imm : Imm) (s : State) : Result := alu64K .divmul64 aluSdiv dst imm s

/-- `SDIV64_X` (40_alu_add_to_rsh.md R175). -/
def execSdiv64X (dst src : RegNum) (s : State) : Result := alu64X .divmul64 aluSdiv dst src s

/-- `OR32_K` (40_alu_add_to_rsh.md R176). -/
def execOr32K (dst : RegNum) (imm : Imm) (s : State) : Result := alu32K .base32 aluOr dst imm s

/-- `OR32_X` (40_alu_add_to_rsh.md R177). -/
def execOr32X (dst src : RegNum) (s : State) : Result := alu32X .base32 aluOr dst src s

/-- `OR64_K` (40_alu_add_to_rsh.md R178). -/
def execOr64K (dst : RegNum) (imm : Imm) (s : State) : Result := alu64K .base64 aluOr dst imm s

/-- `OR64_X` (40_alu_add_to_rsh.md R179). -/
def execOr64X (dst src : RegNum) (s : State) : Result := alu64X .base64 aluOr dst src s

/-- `AND32_K` (40_alu_add_to_rsh.md R180). -/
def execAnd32K (dst : RegNum) (imm : Imm) (s : State) : Result := alu32K .base32 aluAnd dst imm s

/-- `AND32_X` (40_alu_add_to_rsh.md R181). -/
def execAnd32X (dst src : RegNum) (s : State) : Result := alu32X .base32 aluAnd dst src s

/-- `AND64_K` (40_alu_add_to_rsh.md R182). -/
def execAnd64K (dst : RegNum) (imm : Imm) (s : State) : Result := alu64K .base64 aluAnd dst imm s

/-- `AND64_X` (40_alu_add_to_rsh.md R183). -/
def execAnd64X (dst src : RegNum) (s : State) : Result := alu64X .base64 aluAnd dst src s

/-- `LSH32_K` (40_alu_add_to_rsh.md R184). -/
def execLsh32K (dst : RegNum) (imm : Imm) (s : State) : Result := alu32K .base32 aluLsh dst imm s

/-- `LSH32_X` (40_alu_add_to_rsh.md R185). -/
def execLsh32X (dst src : RegNum) (s : State) : Result := alu32X .base32 aluLsh dst src s

/-- `LSH64_K` (40_alu_add_to_rsh.md R186). -/
def execLsh64K (dst : RegNum) (imm : Imm) (s : State) : Result := alu64K .base64 aluLsh dst imm s

/-- `LSH64_X` (40_alu_add_to_rsh.md R187). -/
def execLsh64X (dst src : RegNum) (s : State) : Result := alu64X .base64 aluLsh dst src s

/-- `RSH32_K` (40_alu_add_to_rsh.md R188). -/
def execRsh32K (dst : RegNum) (imm : Imm) (s : State) : Result := alu32K .base32 aluRsh dst imm s

/-- `RSH32_X` (40_alu_add_to_rsh.md R189). -/
def execRsh32X (dst src : RegNum) (s : State) : Result := alu32X .base32 aluRsh dst src s

/-- `RSH64_K` (40_alu_add_to_rsh.md R190). -/
def execRsh64K (dst : RegNum) (imm : Imm) (s : State) : Result := alu64K .base64 aluRsh dst imm s

/-- `RSH64_X` (40_alu_add_to_rsh.md R191). -/
def execRsh64X (dst src : RegNum) (s : State) : Result := alu64X .base64 aluRsh dst src s

end Sys2Proof.Machine
end

