-- ==== Sys2Proof/Machine/AluNegToArsh.lean ====
section
/-! DEFINITION. The arithmetic instructions NEG to ARSH (41_alu_neg_to_arsh.md). -/

namespace Sys2Proof.Machine

/-- `NEG32` (41_alu_neg_to_arsh.md R204). -/
def execNeg32 (dst : RegNum) (s : State) : Result := unary .base32 (fun a => zext32 (aluNeg (lo32 a))) dst s

/-- `NEG64` (41_alu_neg_to_arsh.md R205). -/
def execNeg64 (dst : RegNum) (s : State) : Result := unary .base64 aluNeg dst s

/-- `MOD32_K` (41_alu_neg_to_arsh.md R206). -/
def execMod32K (dst : RegNum) (imm : Imm) (s : State) : Result := alu32K .divmul32 aluMod dst imm s

/-- `MOD32_X` (41_alu_neg_to_arsh.md R207). -/
def execMod32X (dst src : RegNum) (s : State) : Result := alu32X .divmul32 aluMod dst src s

/-- `MOD64_K` (41_alu_neg_to_arsh.md R208). -/
def execMod64K (dst : RegNum) (imm : Imm) (s : State) : Result := alu64K .divmul64 aluMod dst imm s

/-- `MOD64_X` (41_alu_neg_to_arsh.md R209). -/
def execMod64X (dst src : RegNum) (s : State) : Result := alu64X .divmul64 aluMod dst src s

/-- `SMOD32_K` (41_alu_neg_to_arsh.md R210). -/
def execSmod32K (dst : RegNum) (imm : Imm) (s : State) : Result := alu32K .divmul32 aluSmod dst imm s

/-- `SMOD32_X` (41_alu_neg_to_arsh.md R211). -/
def execSmod32X (dst src : RegNum) (s : State) : Result := alu32X .divmul32 aluSmod dst src s

/-- `SMOD64_K` (41_alu_neg_to_arsh.md R212). -/
def execSmod64K (dst : RegNum) (imm : Imm) (s : State) : Result := alu64K .divmul64 aluSmod dst imm s

/-- `SMOD64_X` (41_alu_neg_to_arsh.md R213). -/
def execSmod64X (dst src : RegNum) (s : State) : Result := alu64X .divmul64 aluSmod dst src s

/-- `XOR32_K` (41_alu_neg_to_arsh.md R214). -/
def execXor32K (dst : RegNum) (imm : Imm) (s : State) : Result := alu32K .base32 aluXor dst imm s

/-- `XOR32_X` (41_alu_neg_to_arsh.md R215). -/
def execXor32X (dst src : RegNum) (s : State) : Result := alu32X .base32 aluXor dst src s

/-- `XOR64_K` (41_alu_neg_to_arsh.md R216). -/
def execXor64K (dst : RegNum) (imm : Imm) (s : State) : Result := alu64K .base64 aluXor dst imm s

/-- `XOR64_X` (41_alu_neg_to_arsh.md R217). -/
def execXor64X (dst src : RegNum) (s : State) : Result := alu64X .base64 aluXor dst src s

/-- `MOV32_K` (41_alu_neg_to_arsh.md R218). -/
def execMov32K (dst : RegNum) (imm : Imm) (s : State) : Result := moveK .base32 (zext32 imm) dst s

/-- `MOV32_X` (41_alu_neg_to_arsh.md R219). -/
def execMov32X (dst src : RegNum) (s : State) : Result := moveX .base32 (fun b => zext32 (lo32 b)) dst src s

/-- `MOV64_K` (41_alu_neg_to_arsh.md R220). -/
def execMov64K (dst : RegNum) (imm : Imm) (s : State) : Result := moveK .base64 (sextImm imm) dst s

/-- `MOV64_X` (41_alu_neg_to_arsh.md R221). -/
def execMov64X (dst src : RegNum) (s : State) : Result := moveX .base64 (fun b => b) dst src s

/-- `MOVSX32_8` (41_alu_neg_to_arsh.md R222). -/
def execMovsx32_8 (dst src : RegNum) (s : State) : Result :=
  moveX .base32 (fun b => zext32 (signExtendLow 8 (lo32 b))) dst src s

/-- `MOVSX32_16` (41_alu_neg_to_arsh.md R223). -/
def execMovsx32_16 (dst src : RegNum) (s : State) : Result :=
  moveX .base32 (fun b => zext32 (signExtendLow 16 (lo32 b))) dst src s

/-- `MOVSX64_8` (41_alu_neg_to_arsh.md R224). -/
def execMovsx64_8 (dst src : RegNum) (s : State) : Result := moveX .base64 (signExtendLow 8) dst src s

/-- `MOVSX64_16` (41_alu_neg_to_arsh.md R225). -/
def execMovsx64_16 (dst src : RegNum) (s : State) : Result := moveX .base64 (signExtendLow 16) dst src s

/-- `MOVSX64_32` (41_alu_neg_to_arsh.md R226). -/
def execMovsx64_32 (dst src : RegNum) (s : State) : Result := moveX .base64 (signExtendLow 32) dst src s

/-- `ARSH32_K` (41_alu_neg_to_arsh.md R227). -/
def execArsh32K (dst : RegNum) (imm : Imm) (s : State) : Result := alu32K .base32 aluArsh dst imm s

/-- `ARSH32_X` (41_alu_neg_to_arsh.md R228). -/
def execArsh32X (dst src : RegNum) (s : State) : Result := alu32X .base32 aluArsh dst src s

/-- `ARSH64_K` (41_alu_neg_to_arsh.md R229). -/
def execArsh64K (dst : RegNum) (imm : Imm) (s : State) : Result := alu64K .base64 aluArsh dst imm s

/-- `ARSH64_X` (41_alu_neg_to_arsh.md R230). -/
def execArsh64X (dst src : RegNum) (s : State) : Result := alu64X .base64 aluArsh dst src s

end Sys2Proof.Machine
end

