-- ==== Sys2Proof/Machine/Atomic.lean ====
section
/-! DEFINITION. The atomic operations (46_atomic.md). -/

namespace Sys2Proof.Machine

/-- `ATOMIC_ADD32` (46_atomic.md R379). -/
def execAtomicAdd32 (dst src : RegNum) (off : Offset) (s : State) : Result :=
  atomicSimple .atomic32 4 (at32 aluAdd) dst src off s

/-- `ATOMIC_FETCH_ADD32` (46_atomic.md R380). -/
def execAtomicFetchAdd32 (dst src : RegNum) (off : Offset) (s : State) : Result :=
  atomicFetch .atomic32 4 (at32 aluAdd) dst src off s

/-- `ATOMIC_OR32` (46_atomic.md R381). -/
def execAtomicOr32 (dst src : RegNum) (off : Offset) (s : State) : Result :=
  atomicSimple .atomic32 4 (at32 aluOr) dst src off s

/-- `ATOMIC_FETCH_OR32` (46_atomic.md R382). -/
def execAtomicFetchOr32 (dst src : RegNum) (off : Offset) (s : State) : Result :=
  atomicFetch .atomic32 4 (at32 aluOr) dst src off s

/-- `ATOMIC_AND32` (46_atomic.md R383). -/
def execAtomicAnd32 (dst src : RegNum) (off : Offset) (s : State) : Result :=
  atomicSimple .atomic32 4 (at32 aluAnd) dst src off s

/-- `ATOMIC_FETCH_AND32` (46_atomic.md R384). -/
def execAtomicFetchAnd32 (dst src : RegNum) (off : Offset) (s : State) : Result :=
  atomicFetch .atomic32 4 (at32 aluAnd) dst src off s

/-- `ATOMIC_XOR32` (46_atomic.md R385). -/
def execAtomicXor32 (dst src : RegNum) (off : Offset) (s : State) : Result :=
  atomicSimple .atomic32 4 (at32 aluXor) dst src off s

/-- `ATOMIC_FETCH_XOR32` (46_atomic.md R386). -/
def execAtomicFetchXor32 (dst src : RegNum) (off : Offset) (s : State) : Result :=
  atomicFetch .atomic32 4 (at32 aluXor) dst src off s

/-- `ATOMIC_XCHG32` (46_atomic.md R387). -/
def execAtomicXchg32 (dst src : RegNum) (off : Offset) (s : State) : Result :=
  atomicFetch .atomic32 4 (at32 fun _ v => v) dst src off s

/-- `ATOMIC_CMPXCHG32` (46_atomic.md R388). -/
def execAtomicCmpxchg32 (dst src : RegNum) (off : Offset) (s : State) : Result :=
  atomicCmpxchg .atomic32 4 (fun old c => lo32 old == lo32 c) dst src off s

/-- `ATOMIC_ADD64` (46_atomic.md R389). -/
def execAtomicAdd64 (dst src : RegNum) (off : Offset) (s : State) : Result :=
  atomicSimple .atomic64 8 aluAdd dst src off s

/-- `ATOMIC_FETCH_ADD64` (46_atomic.md R390). -/
def execAtomicFetchAdd64 (dst src : RegNum) (off : Offset) (s : State) : Result :=
  atomicFetch .atomic64 8 aluAdd dst src off s

/-- `ATOMIC_OR64` (46_atomic.md R391). -/
def execAtomicOr64 (dst src : RegNum) (off : Offset) (s : State) : Result :=
  atomicSimple .atomic64 8 aluOr dst src off s

/-- `ATOMIC_FETCH_OR64` (46_atomic.md R392). -/
def execAtomicFetchOr64 (dst src : RegNum) (off : Offset) (s : State) : Result :=
  atomicFetch .atomic64 8 aluOr dst src off s

/-- `ATOMIC_AND64` (46_atomic.md R393). -/
def execAtomicAnd64 (dst src : RegNum) (off : Offset) (s : State) : Result :=
  atomicSimple .atomic64 8 aluAnd dst src off s

/-- `ATOMIC_FETCH_AND64` (46_atomic.md R394). -/
def execAtomicFetchAnd64 (dst src : RegNum) (off : Offset) (s : State) : Result :=
  atomicFetch .atomic64 8 aluAnd dst src off s

/-- `ATOMIC_XOR64` (46_atomic.md R395). -/
def execAtomicXor64 (dst src : RegNum) (off : Offset) (s : State) : Result :=
  atomicSimple .atomic64 8 aluXor dst src off s

/-- `ATOMIC_FETCH_XOR64` (46_atomic.md R396). -/
def execAtomicFetchXor64 (dst src : RegNum) (off : Offset) (s : State) : Result :=
  atomicFetch .atomic64 8 aluXor dst src off s

/-- `ATOMIC_XCHG64` (46_atomic.md R397). -/
def execAtomicXchg64 (dst src : RegNum) (off : Offset) (s : State) : Result :=
  atomicFetch .atomic64 8 (fun _ v => v) dst src off s

/-- `ATOMIC_CMPXCHG64` (46_atomic.md R398). -/
def execAtomicCmpxchg64 (dst src : RegNum) (off : Offset) (s : State) : Result :=
  atomicCmpxchg .atomic64 8 (fun old c => old == c) dst src off s

end Sys2Proof.Machine
end

