-- ==== Sys2Proof/Machine/ByteSwap.lean ====
section
/-! DEFINITION. The byte swap instructions (42_byteswap.md). The operand is the low 16, 32 or 64 bits, the result is
zero-extended (R243). -/

namespace Sys2Proof.Machine

/-- `LE16` (42_byteswap.md R245). -/
def execLe16 (dst : RegNum) (s : State) : Result :=
  unary .base32 (fun a => (convert s.params.endian .little swap16 (a.setWidth 16)).setWidth 64) dst s

/-- `LE32` (42_byteswap.md R246). -/
def execLe32 (dst : RegNum) (s : State) : Result :=
  unary .base32 (fun a => (convert s.params.endian .little swap32 (a.setWidth 32)).setWidth 64) dst s

/-- `LE64` (42_byteswap.md R247). -/
def execLe64 (dst : RegNum) (s : State) : Result := unary .base64 (convert s.params.endian .little swap64) dst s

/-- `BE16` (42_byteswap.md R248). -/
def execBe16 (dst : RegNum) (s : State) : Result :=
  unary .base32 (fun a => (convert s.params.endian .big swap16 (a.setWidth 16)).setWidth 64) dst s

/-- `BE32` (42_byteswap.md R249). -/
def execBe32 (dst : RegNum) (s : State) : Result :=
  unary .base32 (fun a => (convert s.params.endian .big swap32 (a.setWidth 32)).setWidth 64) dst s

/-- `BE64` (42_byteswap.md R250). -/
def execBe64 (dst : RegNum) (s : State) : Result := unary .base64 (convert s.params.endian .big swap64) dst s

/-- `BSWAP16` (42_byteswap.md R251). -/
def execBswap16 (dst : RegNum) (s : State) : Result :=
  unary .base32 (fun a => (swap16 (a.setWidth 16)).setWidth 64) dst s

/-- `BSWAP32` (42_byteswap.md R252). -/
def execBswap32 (dst : RegNum) (s : State) : Result :=
  unary .base32 (fun a => (swap32 (a.setWidth 32)).setWidth 64) dst s

/-- `BSWAP64` (42_byteswap.md R253). -/
def execBswap64 (dst : RegNum) (s : State) : Result := unary .base64 swap64 dst s

end Sys2Proof.Machine
end

