-- ==== Sys2Proof/Machine/CallExit.lean ====
section
/-! DEFINITION. The calls and EXIT (44_call_exit.md). -/

namespace Sys2Proof.Machine

/-- `length(calls) >= CALL_DEPTH_MAX` (44_call_exit.md R322, R326). -/
def atMaxDepth (s : State) : Bool :=
  match s.params.callDepthMax with
  | none => false
  | some d => decide (d ≤ s.calls.length)

/-- `CALL_HELPER` (44_call_exit.md R321). -/
def execCallHelper (imm : Imm) (s : State) : Result := issue .base32 [] s <| platformCall (.helper .staticId imm) s

/-- `CALL_LOCAL` (44_call_exit.md R322). -/
def execCallLocal (imm : Imm) (s : State) : Result :=
  issue .base32 [] s <|
    if atMaxDepth s then raise (.callDepthExceeded s.pc) s
    else .next { s with calls := s.calls ++ [s.pc + 1], pc := target s.pc imm.toInt }

/-- `CALL_BTF` (44_call_exit.md R323). -/
def execCallBtf (imm : Imm) (s : State) : Result := issue .base32 [] s <| platformCall (.helper .btfId imm) s

/-- `EXIT` (44_call_exit.md R324). -/
def execExit (s : State) : Result :=
  issue .base32 [] s <|
    match s.calls.getLast? with
    | none => .next { s with status := .exited (s.reg 0) }
    | some t => .next { s with calls := s.calls.dropLast, pc := t }

end Sys2Proof.Machine
end

