-- ==== Sys2Proof/Machine/Imm64.lean ====
section
/-! DEFINITION. The 64-bit immediate instructions and the second slot (47_imm64.md). -/

namespace Sys2Proof.Machine

/-- `LDDW` (47_imm64.md R401). -/
def execLddw (dst : RegNum) (imm nextImm : Imm) (s : State) : Result :=
  issue .base64 [dst] s <| finishWide dst (imm64 imm nextImm) s

/-- `LD_MAP_FD` (47_imm64.md R402). -/
def execLdMapFd (dst : RegNum) (imm : Imm) (s : State) : Result :=
  wideLookup (s.params.mapByFd.lookup imm) (.mapByFd imm) dst s

/-- `LD_MAP_VAL_FD` (47_imm64.md R403). -/
def execLdMapValFd (dst : RegNum) (imm nextImm : Imm) (s : State) : Result :=
  wideMapVal (s.params.mapByFd.lookup imm) (.mapByFd imm) dst nextImm s

/-- `LD_VAR_ADDR` (47_imm64.md R404). -/
def execLdVarAddr (dst : RegNum) (imm : Imm) (s : State) : Result :=
  wideLookup (s.params.varAddr.lookup imm) (.varAddr imm) dst s

/-- `LD_CODE_ADDR` (47_imm64.md R405). -/
def execLdCodeAddr (dst : RegNum) (imm : Imm) (s : State) : Result :=
  wideLookup (s.params.codeAddr.lookup (s.pc, imm)) (.codeAddr s.pc imm) dst s

/-- `LD_MAP_IDX` (47_imm64.md R406). -/
def execLdMapIdx (dst : RegNum) (imm : Imm) (s : State) : Result :=
  wideLookup (s.params.mapByIdx.lookup imm) (.mapByIdx imm) dst s

/-- `LD_MAP_VAL_IDX` (47_imm64.md R407). -/
def execLdMapValIdx (dst : RegNum) (imm nextImm : Imm) (s : State) : Result :=
  wideMapVal (s.params.mapByIdx.lookup imm) (.mapByIdx imm) dst nextImm s

/-- `IMM64_HI` (47_imm64.md R408). -/
def execImm64Hi (_nextImm : Imm) (s : State) : Result := raise (.illegalInstruction s.pc) s

end Sys2Proof.Machine
end

