-- ==== Sys2Proof/Machine/Flags.lean ====
section
/-! DEFINITION. The machine has no flags, condition codes or predicate registers (10_state.md R40): a conditional jump
compares its two operands itself. This file holds the eleven conditions (43_jump.md R262), at the width of the
operands. -/

namespace Sys2Proof.Machine

/-- JEQ. -/
def condEq {w : Nat} (a b : BitVec w) : Bool := a == b

/-- JGT: unsigned. -/
def condGt {w : Nat} (a b : BitVec w) : Bool := decide (a.toNat > b.toNat)

/-- JGE: unsigned. -/
def condGe {w : Nat} (a b : BitVec w) : Bool := decide (a.toNat ≥ b.toNat)

/-- JSET: some bit is set in both. -/
def condSet {w : Nat} (a b : BitVec w) : Bool := a &&& b != 0

/-- JNE. -/
def condNe {w : Nat} (a b : BitVec w) : Bool := a != b

/-- JSGT: signed. -/
def condSgt {w : Nat} (a b : BitVec w) : Bool := decide (a.toInt > b.toInt)

/-- JSGE: signed. -/
def condSge {w : Nat} (a b : BitVec w) : Bool := decide (a.toInt ≥ b.toInt)

/-- JLT: unsigned. -/
def condLt {w : Nat} (a b : BitVec w) : Bool := decide (a.toNat < b.toNat)

/-- JLE: unsigned. -/
def condLe {w : Nat} (a b : BitVec w) : Bool := decide (a.toNat ≤ b.toNat)

/-- JSLT: signed. -/
def condSlt {w : Nat} (a b : BitVec w) : Bool := decide (a.toInt < b.toInt)

/-- JSLE: signed. -/
def condSle {w : Nat} (a b : BitVec w) : Bool := decide (a.toInt ≤ b.toInt)

end Sys2Proof.Machine
end

