-- ==== Sys2Proof/Machine/Jump.lean ====
section
/-! DEFINITION. The jumps (43_jump.md). A jump writes `pc` and nothing else (R263). -/

namespace Sys2Proof.Machine

/-- `JEQ64_K` (43_jump.md R268). -/
def execJeq64K (dst : RegNum) (off : Offset) (imm : Imm) (s : State) : Result := jump64K condEq dst off imm s

/-- `JEQ64_X` (43_jump.md R269). -/
def execJeq64X (dst src : RegNum) (off : Offset) (s : State) : Result := jump64X condEq dst src off s

/-- `JEQ32_K` (43_jump.md R270). -/
def execJeq32K (dst : RegNum) (off : Offset) (imm : Imm) (s : State) : Result := jump32K condEq dst off imm s

/-- `JEQ32_X` (43_jump.md R271). -/
def execJeq32X (dst src : RegNum) (off : Offset) (s : State) : Result := jump32X condEq dst src off s

/-- `JGT64_K` (43_jump.md R272). -/
def execJgt64K (dst : RegNum) (off : Offset) (imm : Imm) (s : State) : Result := jump64K condGt dst off imm s

/-- `JGT64_X` (43_jump.md R273). -/
def execJgt64X (dst src : RegNum) (off : Offset) (s : State) : Result := jump64X condGt dst src off s

/-- `JGT32_K` (43_jump.md R274). -/
def execJgt32K (dst : RegNum) (off : Offset) (imm : Imm) (s : State) : Result := jump32K condGt dst off imm s

/-- `JGT32_X` (43_jump.md R275). -/
def execJgt32X (dst src : RegNum) (off : Offset) (s : State) : Result := jump32X condGt dst src off s

/-- `JGE64_K` (43_jump.md R276). -/
def execJge64K (dst : RegNum) (off : Offset) (imm : Imm) (s : State) : Result := jump64K condGe dst off imm s

/-- `JGE64_X` (43_jump.md R277). -/
def execJge64X (dst src : RegNum) (off : Offset) (s : State) : Result := jump64X condGe dst src off s

/-- `JGE32_K` (43_jump.md R278). -/
def execJge32K (dst : RegNum) (off : Offset) (imm : Imm) (s : State) : Result := jump32K condGe dst off imm s

/-- `JGE32_X` (43_jump.md R279). -/
def execJge32X (dst src : RegNum) (off : Offset) (s : State) : Result := jump32X condGe dst src off s

/-- `JSET64_K` (43_jump.md R280). -/
def execJset64K (dst : RegNum) (off : Offset) (imm : Imm) (s : State) : Result := jump64K condSet dst off imm s

/-- `JSET64_X` (43_jump.md R281). -/
def execJset64X (dst src : RegNum) (off : Offset) (s : State) : Result := jump64X condSet dst src off s

/-- `JSET32_K` (43_jump.md R282). -/
def execJset32K (dst : RegNum) (off : Offset) (imm : Imm) (s : State) : Result := jump32K condSet dst off imm s

/-- `JSET32_X` (43_jump.md R283). -/
def execJset32X (dst src : RegNum) (off : Offset) (s : State) : Result := jump32X condSet dst src off s

/-- `JNE64_K` (43_jump.md R284). -/
def execJne64K (dst : RegNum) (off : Offset) (imm : Imm) (s : State) : Result := jump64K condNe dst off imm s

/-- `JNE64_X` (43_jump.md R285). -/
def execJne64X (dst src : RegNum) (off : Offset) (s : State) : Result := jump64X condNe dst src off s

/-- `JNE32_K` (43_jump.md R286). -/
def execJne32K (dst : RegNum) (off : Offset) (imm : Imm) (s : State) : Result := jump32K condNe dst off imm s

/-- `JNE32_X` (43_jump.md R287). -/
def execJne32X (dst src : RegNum) (off : Offset) (s : State) : Result := jump32X condNe dst src off s

/-- `JSGT64_K` (43_jump.md R288). -/
def execJsgt64K (dst : RegNum) (off : Offset) (imm : Imm) (s : State) : Result := jump64K condSgt dst off imm s

/-- `JSGT64_X` (43_jump.md R289). -/
def execJsgt64X (dst src : RegNum) (off : Offset) (s : State) : Result := jump64X condSgt dst src off s

/-- `JSGT32_K` (43_jump.md R290). -/
def execJsgt32K (dst : RegNum) (off : Offset) (imm : Imm) (s : State) : Result := jump32K condSgt dst off imm s

/-- `JSGT32_X` (43_jump.md R291). -/
def execJsgt32X (dst src : RegNum) (off : Offset) (s : State) : Result := jump32X condSgt dst src off s

/-- `JSGE64_K` (43_jump.md R292). -/
def execJsge64K (dst : RegNum) (off : Offset) (imm : Imm) (s : State) : Result := jump64K condSge dst off imm s

/-- `JSGE64_X` (43_jump.md R293). -/
def execJsge64X (dst src : RegNum) (off : Offset) (s : State) : Result := jump64X condSge dst src off s

/-- `JSGE32_K` (43_jump.md R294). -/
def execJsge32K (dst : RegNum) (off : Offset) (imm : Imm) (s : State) : Result := jump32K condSge dst off imm s

/-- `JSGE32_X` (43_jump.md R295). -/
def execJsge32X (dst src : RegNum) (off : Offset) (s : State) : Result := jump32X condSge dst src off s

/-- `JLT64_K` (43_jump.md R296). -/
def execJlt64K (dst : RegNum) (off : Offset) (imm : Imm) (s : State) : Result := jump64K condLt dst off imm s

/-- `JLT64_X` (43_jump.md R297). -/
def execJlt64X (dst src : RegNum) (off : Offset) (s : State) : Result := jump64X condLt dst src off s

/-- `JLT32_K` (43_jump.md R298). -/
def execJlt32K (dst : RegNum) (off : Offset) (imm : Imm) (s : State) : Result := jump32K condLt dst off imm s

/-- `JLT32_X` (43_jump.md R299). -/
def execJlt32X (dst src : RegNum) (off : Offset) (s : State) : Result := jump32X condLt dst src off s

/-- `JLE64_K` (43_jump.md R300). -/
def execJle64K (dst : RegNum) (off : Offset) (imm : Imm) (s : State) : Result := jump64K condLe dst off imm s

/-- `JLE64_X` (43_jump.md R301). -/
def execJle64X (dst src : RegNum) (off : Offset) (s : State) : Result := jump64X condLe dst src off s

/-- `JLE32_K` (43_jump.md R302). -/
def execJle32K (dst : RegNum) (off : Offset) (imm : Imm) (s : State) : Result := jump32K condLe dst off imm s

/-- `JLE32_X` (43_jump.md R303). -/
def execJle32X (dst src : RegNum) (off : Offset) (s : State) : Result := jump32X condLe dst src off s

/-- `JSLT64_K` (43_jump.md R304). -/
def execJslt64K (dst : RegNum) (off : Offset) (imm : Imm) (s : State) : Result := jump64K condSlt dst off imm s

/-- `JSLT64_X` (43_jump.md R305). -/
def execJslt64X (dst src : RegNum) (off : Offset) (s : State) : Result := jump64X condSlt dst src off s

/-- `JSLT32_K` (43_jump.md R306). -/
def execJslt32K (dst : RegNum) (off : Offset) (imm : Imm) (s : State) : Result := jump32K condSlt dst off imm s

/-- `JSLT32_X` (43_jump.md R307). -/
def execJslt32X (dst src : RegNum) (off : Offset) (s : State) : Result := jump32X condSlt dst src off s

/-- `JSLE64_K` (43_jump.md R308). -/
def execJsle64K (dst : RegNum) (off : Offset) (imm : Imm) (s : State) : Result := jump64K condSle dst off imm s

/-- `JSLE64_X` (43_jump.md R309). -/
def execJsle64X (dst src : RegNum) (off : Offset) (s : State) : Result := jump64X condSle dst src off s

/-- `JSLE32_K` (43_jump.md R310). -/
def execJsle32K (dst : RegNum) (off : Offset) (imm : Imm) (s : State) : Result := jump32K condSle dst off imm s

/-- `JSLE32_X` (43_jump.md R311). -/
def execJsle32X (dst src : RegNum) (off : Offset) (s : State) : Result := jump32X condSle dst src off s

/-- `JA` (43_jump.md R266). -/
def execJa (off : Offset) (s : State) : Result := issue .base32 [] s <| branch true off s

/-- `JA32` (43_jump.md R267). -/
def execJa32 (imm : Imm) (s : State) : Result := issue .base32 [] s <| .next (s.jump (target s.pc imm.toInt))

end Sys2Proof.Machine
end

