-- ==== Sys2Proof/Machine/LoadStore.lean ====
section
/-! DEFINITION. The loads and stores (45_load_store.md). -/

namespace Sys2Proof.Machine

/-- `LDX_W` (45_load_store.md R343). -/
def execLdxW (dst src : RegNum) (off : Offset) (s : State) : Result := load .base32 4 (fun v => v) dst src off s

/-- `LDX_H` (45_load_store.md R344). -/
def execLdxH (dst src : RegNum) (off : Offset) (s : State) : Result := load .base32 2 (fun v => v) dst src off s

/-- `LDX_B` (45_load_store.md R345). -/
def execLdxB (dst src : RegNum) (off : Offset) (s : State) : Result := load .base32 1 (fun v => v) dst src off s

/-- `LDX_DW` (45_load_store.md R346). -/
def execLdxDw (dst src : RegNum) (off : Offset) (s : State) : Result := load .base64 8 (fun v => v) dst src off s

/-- `ST_W` (45_load_store.md R347). -/
def execStW (dst : RegNum) (off : Offset) (imm : Imm) (s : State) : Result := storeImm .base32 4 dst off imm s

/-- `ST_H` (45_load_store.md R348). -/
def execStH (dst : RegNum) (off : Offset) (imm : Imm) (s : State) : Result := storeImm .base32 2 dst off imm s

/-- `ST_B` (45_load_store.md R349). -/
def execStB (dst : RegNum) (off : Offset) (imm : Imm) (s : State) : Result := storeImm .base32 1 dst off imm s

/-- `ST_DW` (45_load_store.md R350). -/
def execStDw (dst : RegNum) (off : Offset) (imm : Imm) (s : State) : Result := storeImm .base64 8 dst off imm s

/-- `STX_W` (45_load_store.md R351). -/
def execStxW (dst src : RegNum) (off : Offset) (s : State) : Result := storeReg .base32 4 dst src off s

/-- `STX_H` (45_load_store.md R352). -/
def execStxH (dst src : RegNum) (off : Offset) (s : State) : Result := storeReg .base32 2 dst src off s

/-- `STX_B` (45_load_store.md R353). -/
def execStxB (dst src : RegNum) (off : Offset) (s : State) : Result := storeReg .base32 1 dst src off s

/-- `STX_DW` (45_load_store.md R354). -/
def execStxDw (dst src : RegNum) (off : Offset) (s : State) : Result := storeReg .base64 8 dst src off s

/-- `LDXS_W` (45_load_store.md R356). -/
def execLdxsW (dst src : RegNum) (off : Offset) (s : State) : Result := load .base32 4 (sextBytes 4) dst src off s

/-- `LDXS_H` (45_load_store.md R357). -/
def execLdxsH (dst src : RegNum) (off : Offset) (s : State) : Result := load .base32 2 (sextBytes 2) dst src off s

/-- `LDXS_B` (45_load_store.md R358). -/
def execLdxsB (dst src : RegNum) (off : Offset) (s : State) : Result := load .base32 1 (sextBytes 1) dst src off s

end Sys2Proof.Machine
end

