-- ==== Sys2Proof/Machine/Packet.lean ====
section
/-! DEFINITION. The packet instructions (48_packet.md). The spec gives their encodings; on a platform
that puts `packet` in `GROUPS` the platform supplies their effect (R428), as for a helper. -/

namespace Sys2Proof.Machine

/-- `LD_ABS_W` (48_packet.md R422). -/
def execLdAbsW (imm : Imm) (s : State) : Result := issue .packet [] s <| platformCall (.packet .abs .w 0 imm) s

/-- `LD_ABS_H` (48_packet.md R423). -/
def execLdAbsH (imm : Imm) (s : State) : Result := issue .packet [] s <| platformCall (.packet .abs .h 0 imm) s

/-- `LD_ABS_B` (48_packet.md R424). -/
def execLdAbsB (imm : Imm) (s : State) : Result := issue .packet [] s <| platformCall (.packet .abs .b 0 imm) s

/-- `LD_IND_W` (48_packet.md R425). -/
def execLdIndW (src : RegNum) (imm : Imm) (s : State) : Result :=
  issue .packet [src] s <| platformCall (.packet .ind .w src imm) s

/-- `LD_IND_H` (48_packet.md R426). -/
def execLdIndH (src : RegNum) (imm : Imm) (s : State) : Result :=
  issue .packet [src] s <| platformCall (.packet .ind .h src imm) s

/-- `LD_IND_B` (48_packet.md R427). -/
def execLdIndB (src : RegNum) (imm : Imm) (s : State) : Result :=
  issue .packet [src] s <| platformCall (.packet .ind .b src imm) s

end Sys2Proof.Machine
end

