-- ==== Sys2Proof/Machine/Dispatch.lean ====
section
/-! DEFINITION. One arm for each instruction: a direct call of its meaning. -/

namespace Sys2Proof.Machine

def exec (i : Instr) (s : State) : Host.Outcome State Fault Refusal :=
  match i with
  | .add32K dst imm => Sys2Proof.Machine.execAdd32K dst imm s
  | .add32X dst src => Sys2Proof.Machine.execAdd32X dst src s
  | .add64K dst imm => Sys2Proof.Machine.execAdd64K dst imm s
  | .add64X dst src => Sys2Proof.Machine.execAdd64X dst src s
  | .sub32K dst imm => Sys2Proof.Machine.execSub32K dst imm s
  | .sub32X dst src => Sys2Proof.Machine.execSub32X dst src s
  | .sub64K dst imm => Sys2Proof.Machine.execSub64K dst imm s
  | .sub64X dst src => Sys2Proof.Machine.execSub64X dst src s
  | .mul32K dst imm => Sys2Proof.Machine.execMul32K dst imm s
  | .mul32X dst src => Sys2Proof.Machine.execMul32X dst src s
  | .mul64K dst imm => Sys2Proof.Machine.execMul64K dst imm s
  | .mul64X dst src => Sys2Proof.Machine.execMul64X dst src s
  | .div32K dst imm => Sys2Proof.Machine.execDiv32K dst imm s
  | .div32X dst src => Sys2Proof.Machine.execDiv32X dst src s
  | .div64K dst imm => Sys2Proof.Machine.execDiv64K dst imm s
  | .div64X dst src => Sys2Proof.Machine.execDiv64X dst src s
  | .sdiv32K dst imm => Sys2Proof.Machine.execSdiv32K dst imm s
  | .sdiv32X dst src => Sys2Proof.Machine.execSdiv32X dst src s
  | .sdiv64K dst imm => Sys2Proof.Machine.execSdiv64K dst imm s
  | .sdiv64X dst src => Sys2Proof.Machine.execSdiv64X dst src s
  | .or32K dst imm => Sys2Proof.Machine.execOr32K dst imm s
  | .or32X dst src => Sys2Proof.Machine.execOr32X dst src s
  | .or64K dst imm => Sys2Proof.Machine.execOr64K dst imm s
  | .or64X dst src => Sys2Proof.Machine.execOr64X dst src s
  | .and32K dst imm => Sys2Proof.Machine.execAnd32K dst imm s
  | .and32X dst src => Sys2Proof.Machine.execAnd32X dst src s
  | .and64K dst imm => Sys2Proof.Machine.execAnd64K dst imm s
  | .and64X dst src => Sys2Proof.Machine.execAnd64X dst src s
  | .lsh32K dst imm => Sys2Proof.Machine.execLsh32K dst imm s
  | .lsh32X dst src => Sys2Proof.Machine.execLsh32X dst src s
  | .lsh64K dst imm => Sys2Proof.Machine.execLsh64K dst imm s
  | .lsh64X dst src => Sys2Proof.Machine.execLsh64X dst src s
  | .rsh32K dst imm => Sys2Proof.Machine.execRsh32K dst imm s
  | .rsh32X dst src => Sys2Proof.Machine.execRsh32X dst src s
  | .rsh64K dst imm => Sys2Proof.Machine.execRsh64K dst imm s
  | .rsh64X dst src => Sys2Proof.Machine.execRsh64X dst src s
  | .neg32 dst => Sys2Proof.Machine.execNeg32 dst s
  | .neg64 dst => Sys2Proof.Machine.execNeg64 dst s
  | .mod32K dst imm => Sys2Proof.Machine.execMod32K dst imm s
  | .mod32X dst src => Sys2Proof.Machine.execMod32X dst src s
  | .mod64K dst imm => Sys2Proof.Machine.execMod64K dst imm s
  | .mod64X dst src => Sys2Proof.Machine.execMod64X dst src s
  | .smod32K dst imm => Sys2Proof.Machine.execSmod32K dst imm s
  | .smod32X dst src => Sys2Proof.Machine.execSmod32X dst src s
  | .smod64K dst imm => Sys2Proof.Machine.execSmod64K dst imm s
  | .smod64X dst src => Sys2Proof.Machine.execSmod64X dst src s
  | .xor32K dst imm => Sys2Proof.Machine.execXor32K dst imm s
  | .xor32X dst src => Sys2Proof.Machine.execXor32X dst src s
  | .xor64K dst imm => Sys2Proof.Machine.execXor64K dst imm s
  | .xor64X dst src => Sys2Proof.Machine.execXor64X dst src s
  | .mov32K dst imm => Sys2Proof.Machine.execMov32K dst imm s
  | .mov32X dst src => Sys2Proof.Machine.execMov32X dst src s
  | .mov64K dst imm => Sys2Proof.Machine.execMov64K dst imm s
  | .mov64X dst src => Sys2Proof.Machine.execMov64X dst src s
  | .movsx32_8 dst src => Sys2Proof.Machine.execMovsx32_8 dst src s
  | .movsx32_16 dst src => Sys2Proof.Machine.execMovsx32_16 dst src s
  | .movsx64_8 dst src => Sys2Proof.Machine.execMovsx64_8 dst src s
  | .movsx64_16 dst src => Sys2Proof.Machine.execMovsx64_16 dst src s
  | .movsx64_32 dst src => Sys2Proof.Machine.execMovsx64_32 dst src s
  | .arsh32K dst imm => Sys2Proof.Machine.execArsh32K dst imm s
  | .arsh32X dst src => Sys2Proof.Machine.execArsh32X dst src s
  | .arsh64K dst imm => Sys2Proof.Machine.execArsh64K dst imm s
  | .arsh64X dst src => Sys2Proof.Machine.execArsh64X dst src s
  | .le16 dst => Sys2Proof.Machine.execLe16 dst s
  | .le32 dst => Sys2Proof.Machine.execLe32 dst s
  | .le64 dst => Sys2Proof.Machine.execLe64 dst s
  | .be16 dst => Sys2Proof.Machine.execBe16 dst s
  | .be32 dst => Sys2Proof.Machine.execBe32 dst s
  | .be64 dst => Sys2Proof.Machine.execBe64 dst s
  | .bswap16 dst => Sys2Proof.Machine.execBswap16 dst s
  | .bswap32 dst => Sys2Proof.Machine.execBswap32 dst s
  | .bswap64 dst => Sys2Proof.Machine.execBswap64 dst s
  | .jeq64K dst off imm => Sys2Proof.Machine.execJeq64K dst off imm s
  | .jeq64X dst src off => Sys2Proof.Machine.execJeq64X dst src off s
  | .jeq32K dst off imm => Sys2Proof.Machine.execJeq32K dst off imm s
  | .jeq32X dst src off => Sys2Proof.Machine.execJeq32X dst src off s
  | .jgt64K dst off imm => Sys2Proof.Machine.execJgt64K dst off imm s
  | .jgt64X dst src off => Sys2Proof.Machine.execJgt64X dst src off s
  | .jgt32K dst off imm => Sys2Proof.Machine.execJgt32K dst off imm s
  | .jgt32X dst src off => Sys2Proof.Machine.execJgt32X dst src off s
  | .jge64K dst off imm => Sys2Proof.Machine.execJge64K dst off imm s
  | .jge64X dst src off => Sys2Proof.Machine.execJge64X dst src off s
  | .jge32K dst off imm => Sys2Proof.Machine.execJge32K dst off imm s
  | .jge32X dst src off => Sys2Proof.Machine.execJge32X dst src off s
  | .jset64K dst off imm => Sys2Proof.Machine.execJset64K dst off imm s
  | .jset64X dst src off => Sys2Proof.Machine.execJset64X dst src off s
  | .jset32K dst off imm => Sys2Proof.Machine.execJset32K dst off imm s
  | .jset32X dst src off => Sys2Proof.Machine.execJset32X dst src off s
  | .jne64K dst off imm => Sys2Proof.Machine.execJne64K dst off imm s
  | .jne64X dst src off => Sys2Proof.Machine.execJne64X dst src off s
  | .jne32K dst off imm => Sys2Proof.Machine.execJne32K dst off imm s
  | .jne32X dst src off => Sys2Proof.Machine.execJne32X dst src off s
  | .jsgt64K dst off imm => Sys2Proof.Machine.execJsgt64K dst off imm s
  | .jsgt64X dst src off => Sys2Proof.Machine.execJsgt64X dst src off s
  | .jsgt32K dst off imm => Sys2Proof.Machine.execJsgt32K dst off imm s
  | .jsgt32X dst src off => Sys2Proof.Machine.execJsgt32X dst src off s
  | .jsge64K dst off imm => Sys2Proof.Machine.execJsge64K dst off imm s
  | .jsge64X dst src off => Sys2Proof.Machine.execJsge64X dst src off s
  | .jsge32K dst off imm => Sys2Proof.Machine.execJsge32K dst off imm s
  | .jsge32X dst src off => Sys2Proof.Machine.execJsge32X dst src off s
  | .jlt64K dst off imm => Sys2Proof.Machine.execJlt64K dst off imm s
  | .jlt64X dst src off => Sys2Proof.Machine.execJlt64X dst src off s
  | .jlt32K dst off imm => Sys2Proof.Machine.execJlt32K dst off imm s
  | .jlt32X dst src off => Sys2Proof.Machine.execJlt32X dst src off s
  | .jle64K dst off imm => Sys2Proof.Machine.execJle64K dst off imm s
  | .jle64X dst src off => Sys2Proof.Machine.execJle64X dst src off s
  | .jle32K dst off imm => Sys2Proof.Machine.execJle32K dst off imm s
  | .jle32X dst src off => Sys2Proof.Machine.execJle32X dst src off s
  | .jslt64K dst off imm => Sys2Proof.Machine.execJslt64K dst off imm s
  | .jslt64X dst src off => Sys2Proof.Machine.execJslt64X dst src off s
  | .jslt32K dst off imm => Sys2Proof.Machine.execJslt32K dst off imm s
  | .jslt32X dst src off => Sys2Proof.Machine.execJslt32X dst src off s
  | .jsle64K dst off imm => Sys2Proof.Machine.execJsle64K dst off imm s
  | .jsle64X dst src off => Sys2Proof.Machine.execJsle64X dst src off s
  | .jsle32K dst off imm => Sys2Proof.Machine.execJsle32K dst off imm s
  | .jsle32X dst src off => Sys2Proof.Machine.execJsle32X dst src off s
  | .ja off => Sys2Proof.Machine.execJa off s
  | .ja32 imm => Sys2Proof.Machine.execJa32 imm s
  | .callHelper imm => Sys2Proof.Machine.execCallHelper imm s
  | .callLocal imm => Sys2Proof.Machine.execCallLocal imm s
  | .callBtf imm => Sys2Proof.Machine.execCallBtf imm s
  | .exit => Sys2Proof.Machine.execExit s
  | .ldxW dst src off => Sys2Proof.Machine.execLdxW dst src off s
  | .ldxH dst src off => Sys2Proof.Machine.execLdxH dst src off s
  | .ldxB dst src off => Sys2Proof.Machine.execLdxB dst src off s
  | .ldxDw dst src off => Sys2Proof.Machine.execLdxDw dst src off s
  | .stW dst off imm => Sys2Proof.Machine.execStW dst off imm s
  | .stH dst off imm => Sys2Proof.Machine.execStH dst off imm s
  | .stB dst off imm => Sys2Proof.Machine.execStB dst off imm s
  | .stDw dst off imm => Sys2Proof.Machine.execStDw dst off imm s
  | .stxW dst src off => Sys2Proof.Machine.execStxW dst src off s
  | .stxH dst src off => Sys2Proof.Machine.execStxH dst src off s
  | .stxB dst src off => Sys2Proof.Machine.execStxB dst src off s
  | .stxDw dst src off => Sys2Proof.Machine.execStxDw dst src off s
  | .ldxsW dst src off => Sys2Proof.Machine.execLdxsW dst src off s
  | .ldxsH dst src off => Sys2Proof.Machine.execLdxsH dst src off s
  | .ldxsB dst src off => Sys2Proof.Machine.execLdxsB dst src off s
  | .atomicAdd32 dst src off => Sys2Proof.Machine.execAtomicAdd32 dst src off s
  | .atomicFetchAdd32 dst src off => Sys2Proof.Machine.execAtomicFetchAdd32 dst src off s
  | .atomicOr32 dst src off => Sys2Proof.Machine.execAtomicOr32 dst src off s
  | .atomicFetchOr32 dst src off => Sys2Proof.Machine.execAtomicFetchOr32 dst src off s
  | .atomicAnd32 dst src off => Sys2Proof.Machine.execAtomicAnd32 dst src off s
  | .atomicFetchAnd32 dst src off => Sys2Proof.Machine.execAtomicFetchAnd32 dst src off s
  | .atomicXor32 dst src off => Sys2Proof.Machine.execAtomicXor32 dst src off s
  | .atomicFetchXor32 dst src off => Sys2Proof.Machine.execAtomicFetchXor32 dst src off s
  | .atomicXchg32 dst src off => Sys2Proof.Machine.execAtomicXchg32 dst src off s
  | .atomicCmpxchg32 dst src off => Sys2Proof.Machine.execAtomicCmpxchg32 dst src off s
  | .atomicAdd64 dst src off => Sys2Proof.Machine.execAtomicAdd64 dst src off s
  | .atomicFetchAdd64 dst src off => Sys2Proof.Machine.execAtomicFetchAdd64 dst src off s
  | .atomicOr64 dst src off => Sys2Proof.Machine.execAtomicOr64 dst src off s
  | .atomicFetchOr64 dst src off => Sys2Proof.Machine.execAtomicFetchOr64 dst src off s
  | .atomicAnd64 dst src off => Sys2Proof.Machine.execAtomicAnd64 dst src off s
  | .atomicFetchAnd64 dst src off => Sys2Proof.Machine.execAtomicFetchAnd64 dst src off s
  | .atomicXor64 dst src off => Sys2Proof.Machine.execAtomicXor64 dst src off s
  | .atomicFetchXor64 dst src off => Sys2Proof.Machine.execAtomicFetchXor64 dst src off s
  | .atomicXchg64 dst src off => Sys2Proof.Machine.execAtomicXchg64 dst src off s
  | .atomicCmpxchg64 dst src off => Sys2Proof.Machine.execAtomicCmpxchg64 dst src off s
  | .lddw dst imm nextImm => Sys2Proof.Machine.execLddw dst imm nextImm s
  | .ldMapFd dst imm => Sys2Proof.Machine.execLdMapFd dst imm s
  | .ldMapValFd dst imm nextImm => Sys2Proof.Machine.execLdMapValFd dst imm nextImm s
  | .ldVarAddr dst imm => Sys2Proof.Machine.execLdVarAddr dst imm s
  | .ldCodeAddr dst imm => Sys2Proof.Machine.execLdCodeAddr dst imm s
  | .ldMapIdx dst imm => Sys2Proof.Machine.execLdMapIdx dst imm s
  | .ldMapValIdx dst imm nextImm => Sys2Proof.Machine.execLdMapValIdx dst imm nextImm s
  | .imm64Hi nextImm => Sys2Proof.Machine.execImm64Hi nextImm s
  | .ldAbsW imm => Sys2Proof.Machine.execLdAbsW imm s
  | .ldAbsH imm => Sys2Proof.Machine.execLdAbsH imm s
  | .ldAbsB imm => Sys2Proof.Machine.execLdAbsB imm s
  | .ldIndW src imm => Sys2Proof.Machine.execLdIndW src imm s
  | .ldIndH src imm => Sys2Proof.Machine.execLdIndH src imm s
  | .ldIndB src imm => Sys2Proof.Machine.execLdIndB src imm s

end Sys2Proof.Machine
end

