-- ==== Sys2Proof/Decode.lean ====
section
/-! DEFINITION. Decoding and encoding (30_encoding.md). Decoding is total: a slot that is no instruction is refused by
name. The encoder after it is written from the same tables. -/

namespace Sys2Proof

/-! ## The fields of a slot -/

/-- The fields of a slot of program text, by the host byte order (30_encoding.md R103). -/
def Fields.ofSlot (e : Endian) (s : Slot) : Fields :=
  match e with
  | .little => ⟨s.b0, s.b1.extractLsb' 0 4, s.b1.extractLsb' 4 4, s.b3 ++ s.b2, s.b7 ++ s.b6 ++ s.b5 ++ s.b4⟩
  | .big => ⟨s.b0, s.b1.extractLsb' 4 4, s.b1.extractLsb' 0 4, s.b2 ++ s.b3, s.b4 ++ s.b5 ++ s.b6 ++ s.b7⟩

/-- The byte number `k` of a value, byte 0 the least significant. -/
def byteOf {w : Nat} (v : BitVec w) (k : Nat) : Byte := v.extractLsb' (8 * k) 8

/-- The slot that holds the fields, by the host byte order (30_encoding.md R103). -/
def Slot.ofFields (e : Endian) (f : Fields) : Slot :=
  match e with
  | .little => ⟨f.opcode, f.src ++ f.dst, byteOf f.offset 0, byteOf f.offset 1,
      byteOf f.imm 0, byteOf f.imm 1, byteOf f.imm 2, byteOf f.imm 3⟩
  | .big => ⟨f.opcode, f.dst ++ f.src, byteOf f.offset 1, byteOf f.offset 0,
      byteOf f.imm 3, byteOf f.imm 2, byteOf f.imm 1, byteOf f.imm 0⟩

/-- The fields in a canonical instruction word (30_encoding.md R102). -/
def Fields.ofWord (w : BitVec 64) : Fields :=
  ⟨w.extractLsb' 0 8, w.extractLsb' 8 4, w.extractLsb' 12 4, w.extractLsb' 16 16, w.extractLsb' 32 32⟩

/-- The canonical instruction word of the fields (30_encoding.md R102). -/
def Fields.toWord (f : Fields) : BitVec 64 := f.imm ++ f.offset ++ f.src ++ f.dst ++ f.opcode

/-- The slots in the bytes of a program image. A length that is no multiple of 8 is no program
(93_implementation_defined.md U12). -/
def slotsOfBytes : List Byte → Option (List Slot)
  | [] => some []
  | b0 :: b1 :: b2 :: b3 :: b4 :: b5 :: b6 :: b7 :: rest =>
    (slotsOfBytes rest).map (⟨b0, b1, b2, b3, b4, b5, b6, b7⟩ :: ·)
  | _ => none

/-! ## Decoding -/

/-- Why a slot is refused (30_encoding.md R112). -/
inductive DecodeError where
  /-- No row of the opcode table matches: opcode byte, selector or a field that must be zero (R110). -/
  | unknownEncoding
  /-- A register field holds 11 to 15 (R109). -/
  | badRegister
  /-- The first slot of a wide instruction is the last slot of the program (R112 step 4). -/
  | missingSecondSlot
  /-- The second slot of a wide instruction breaks 47_imm64.md R400. -/
  | badSecondSlot
  deriving DecidableEq, Repr

/-- Steps 2 and 3 of 30_encoding.md R112: the fields the row fixes, then the register numbers. -/
def accept (fieldsOk regsOk : Bool) (i : Instr) : Except DecodeError Instr :=
  if fieldsOk then (if regsOk then .ok i else .error .badRegister) else .error .unknownEncoding

/-! The forms of the rows: which fields are operands, the other fields fixed (R108, R118). -/

/-- `dst` and `imm` are operands. -/
def formK (offset : Offset) (c : RegNum → Imm → Instr) (f : Fields) : Except DecodeError Instr :=
  accept (f.src == 0 && f.offset == offset) (isReg f.dst) (c f.dst f.imm)

/-- `dst` and `src` are operands. -/
def formX (offset : Offset) (c : RegNum → RegNum → Instr) (f : Fields) : Except DecodeError Instr :=
  accept (f.offset == offset && f.imm == 0) (isReg f.dst && isReg f.src) (c f.dst f.src)

/-- `dst` is the operand. -/
def formD (imm : Imm) (c : RegNum → Instr) (f : Fields) : Except DecodeError Instr :=
  accept (f.src == 0 && f.offset == 0 && f.imm == imm) (isReg f.dst) (c f.dst)

/-- `dst`, `offset` and `imm` are operands. -/
def formKOff (c : RegNum → Offset → Imm → Instr) (f : Fields) : Except DecodeError Instr :=
  accept (f.src == 0) (isReg f.dst) (c f.dst f.offset f.imm)

/-- `dst`, `src` and `offset` are operands. -/
def formXOff (imm : Imm) (c : RegNum → RegNum → Offset → Instr) (f : Fields) : Except DecodeError Instr :=
  accept (f.imm == imm) (isReg f.dst && isReg f.src) (c f.dst f.src f.offset)

/-- `offset` is the operand. -/
def formOff (c : Offset → Instr) (f : Fields) : Except DecodeError Instr :=
  accept (f.dst == 0 && f.src == 0 && f.imm == 0) true (c f.offset)

/-- `imm` is the operand, `src` a selector. -/
def formImm (src : RegNum) (c : Imm → Instr) (f : Fields) : Except DecodeError Instr :=
  accept (f.dst == 0 && f.src == src && f.offset == 0) true (c f.imm)

/-- `src` and `imm` are operands. -/
def formInd (c : RegNum → Imm → Instr) (f : Fields) : Except DecodeError Instr :=
  accept (f.dst == 0 && f.offset == 0) (isReg f.src) (c f.src f.imm)

/-- No operand. -/
def formNone (i : Instr) (f : Fields) : Except DecodeError Instr :=
  accept (f.dst == 0 && f.src == 0 && f.offset == 0 && f.imm == 0) true i

/-- The second slot of a wide instruction (30_encoding.md R112 step 4, 47_imm64.md R400): the reserved fields are zero,
and so is `next_imm` where the row does not use it. -/
def withSecond (usesNext : Bool) (second : Option Fields) (c : Imm → Instr) : Except DecodeError Instr :=
  match second with
  | none => .error .missingSecondSlot
  | some g =>
    if g.opcode == 0 && g.dst == 0 && g.src == 0 && g.offset == 0 && (usesNext || g.imm == 0) then .ok (c g.imm)
    else .error .badSecondSlot

/-- A wide row with the operands `dst`, `imm` and `next_imm`. -/
def wideNext (c : RegNum → Imm → Imm → Instr) (f : Fields) (second : Option Fields) : Except DecodeError Instr :=
  if f.offset == 0 then (if isReg f.dst then withSecond true second (c f.dst f.imm) else .error .badRegister)
  else .error .unknownEncoding

/-- A wide row with the operands `dst` and `imm`. -/
def wideOnly (c : RegNum → Imm → Instr) (f : Fields) (second : Option Fields) : Except DecodeError Instr :=
  if f.offset == 0 then
    (if isReg f.dst then withSecond false second (fun _ => c f.dst f.imm) else .error .badRegister)
  else .error .unknownEncoding

/-- Opcode byte 0x18: `src` selects the form (30_encoding.md R118, 47_imm64.md R400). -/
def decodeImm64 (f : Fields) (second : Option Fields) : Except DecodeError Instr :=
  match f.src.toNat with
  | 0 => wideNext .lddw f second
  | 1 => wideOnly .ldMapFd f second
  | 2 => wideNext .ldMapValFd f second
  | 3 => wideOnly .ldVarAddr f second
  | 4 => wideOnly .ldCodeAddr f second
  | 5 => wideOnly .ldMapIdx f second
  | 6 => wideNext .ldMapValIdx f second
  | _ => .error .unknownEncoding

/-- 30_encoding.md R105, R122: class LD. -/
def decodeLd (f : Fields) (second : Option Fields) : Except DecodeError Instr :=
  match f.opcode.toNat with
  | 0x00 => formImm 0 .imm64Hi f
  | 0x18 => decodeImm64 f second
  | 0x20 => formImm 0 .ldAbsW f
  | 0x28 => formImm 0 .ldAbsH f
  | 0x30 => formImm 0 .ldAbsB f
  | 0x40 => formInd .ldIndW f
  | 0x48 => formInd .ldIndH f
  | 0x50 => formInd .ldIndB f
  | _ => .error .unknownEncoding

/-- 30_encoding.md R105, R122: class LDX. -/
def decodeLdx (f : Fields) : Except DecodeError Instr :=
  match f.opcode.toNat with
  | 0x61 => formXOff 0 .ldxW f
  | 0x69 => formXOff 0 .ldxH f
  | 0x71 => formXOff 0 .ldxB f
  | 0x79 => formXOff 0 .ldxDw f
  | 0x81 => formXOff 0 .ldxsW f
  | 0x89 => formXOff 0 .ldxsH f
  | 0x91 => formXOff 0 .ldxsB f
  | _ => .error .unknownEncoding

/-- 30_encoding.md R105, R122: class ST. -/
def decodeSt (f : Fields) : Except DecodeError Instr :=
  match f.opcode.toNat with
  | 0x62 => formKOff .stW f
  | 0x6a => formKOff .stH f
  | 0x72 => formKOff .stB f
  | 0x7a => formKOff .stDw f
  | _ => .error .unknownEncoding

/-- 30_encoding.md R105, R122: class STX. -/
def decodeStx (f : Fields) : Except DecodeError Instr :=
  match f.opcode.toNat with
  | 0x63 => formXOff 0 .stxW f
  | 0x6b => formXOff 0 .stxH f
  | 0x73 => formXOff 0 .stxB f
  | 0x7b => formXOff 0 .stxDw f
  | 0xc3 =>
    match f.imm.toNat with
    | 0x00 => formXOff 0 .atomicAdd32 f
    | 0x01 => formXOff 0x1 .atomicFetchAdd32 f
    | 0x40 => formXOff 0x40 .atomicOr32 f
    | 0x41 => formXOff 0x41 .atomicFetchOr32 f
    | 0x50 => formXOff 0x50 .atomicAnd32 f
    | 0x51 => formXOff 0x51 .atomicFetchAnd32 f
    | 0xa0 => formXOff 0xa0 .atomicXor32 f
    | 0xa1 => formXOff 0xa1 .atomicFetchXor32 f
    | 0xe1 => formXOff 0xe1 .atomicXchg32 f
    | 0xf1 => formXOff 0xf1 .atomicCmpxchg32 f
    | _ => .error .unknownEncoding
  | 0xdb =>
    match f.imm.toNat with
    | 0x00 => formXOff 0 .atomicAdd64 f
    | 0x01 => formXOff 0x1 .atomicFetchAdd64 f
    | 0x40 => formXOff 0x40 .atomicOr64 f
    | 0x41 => formXOff 0x41 .atomicFetchOr64 f
    | 0x50 => formXOff 0x50 .atomicAnd64 f
    | 0x51 => formXOff 0x51 .atomicFetchAnd64 f
    | 0xa0 => formXOff 0xa0 .atomicXor64 f
    | 0xa1 => formXOff 0xa1 .atomicFetchXor64 f
    | 0xe1 => formXOff 0xe1 .atomicXchg64 f
    | 0xf1 => formXOff 0xf1 .atomicCmpxchg64 f
    | _ => .error .unknownEncoding
  | _ => .error .unknownEncoding

/-- 30_encoding.md R105, R120: class ALU. -/
def decodeAlu (f : Fields) : Except DecodeError Instr :=
  match f.opcode.toNat with
  | 0x04 => formK 0 .add32K f
  | 0x0c => formX 0 .add32X f
  | 0x14 => formK 0 .sub32K f
  | 0x1c => formX 0 .sub32X f
  | 0x24 => formK 0 .mul32K f
  | 0x2c => formX 0 .mul32X f
  | 0x34 =>
    match f.offset.toNat with
    | 0 => formK 0 .div32K f
    | 1 => formK 1 .sdiv32K f
    | _ => .error .unknownEncoding
  | 0x3c =>
    match f.offset.toNat with
    | 0 => formX 0 .div32X f
    | 1 => formX 1 .sdiv32X f
    | _ => .error .unknownEncoding
  | 0x44 => formK 0 .or32K f
  | 0x4c => formX 0 .or32X f
  | 0x54 => formK 0 .and32K f
  | 0x5c => formX 0 .and32X f
  | 0x64 => formK 0 .lsh32K f
  | 0x6c => formX 0 .lsh32X f
  | 0x74 => formK 0 .rsh32K f
  | 0x7c => formX 0 .rsh32X f
  | 0x84 => formD 0 .neg32 f
  | 0x94 =>
    match f.offset.toNat with
    | 0 => formK 0 .mod32K f
    | 1 => formK 1 .smod32K f
    | _ => .error .unknownEncoding
  | 0x9c =>
    match f.offset.toNat with
    | 0 => formX 0 .mod32X f
    | 1 => formX 1 .smod32X f
    | _ => .error .unknownEncoding
  | 0xa4 => formK 0 .xor32K f
  | 0xac => formX 0 .xor32X f
  | 0xb4 => formK 0 .mov32K f
  | 0xbc =>
    match f.offset.toNat with
    | 0 => formX 0 .mov32X f
    | 8 => formX 8 .movsx32_8 f
    | 16 => formX 16 .movsx32_16 f
    | _ => .error .unknownEncoding
  | 0xc4 => formK 0 .arsh32K f
  | 0xcc => formX 0 .arsh32X f
  | 0xd4 =>
    match f.imm.toNat with
    | 16 => formD 16 .le16 f
    | 32 => formD 32 .le32 f
    | 64 => formD 64 .le64 f
    | _ => .error .unknownEncoding
  | 0xdc =>
    match f.imm.toNat with
    | 16 => formD 16 .be16 f
    | 32 => formD 32 .be32 f
    | 64 => formD 64 .be64 f
    | _ => .error .unknownEncoding
  | _ => .error .unknownEncoding

/-- 30_encoding.md R105, R121: class JMP. -/
def decodeJmp (f : Fields) : Except DecodeError Instr :=
  match f.opcode.toNat with
  | 0x05 => formOff .ja f
  | 0x15 => formKOff .jeq64K f
  | 0x1d => formXOff 0 .jeq64X f
  | 0x25 => formKOff .jgt64K f
  | 0x2d => formXOff 0 .jgt64X f
  | 0x35 => formKOff .jge64K f
  | 0x3d => formXOff 0 .jge64X f
  | 0x45 => formKOff .jset64K f
  | 0x4d => formXOff 0 .jset64X f
  | 0x55 => formKOff .jne64K f
  | 0x5d => formXOff 0 .jne64X f
  | 0x65 => formKOff .jsgt64K f
  | 0x6d => formXOff 0 .jsgt64X f
  | 0x75 => formKOff .jsge64K f
  | 0x7d => formXOff 0 .jsge64X f
  | 0x85 =>
    match f.src.toNat with
    | 0 => formImm 0 .callHelper f
    | 1 => formImm 1 .callLocal f
    | 2 => formImm 2 .callBtf f
    | _ => .error .unknownEncoding
  | 0x95 => formNone .exit f
  | 0xa5 => formKOff .jlt64K f
  | 0xad => formXOff 0 .jlt64X f
  | 0xb5 => formKOff .jle64K f
  | 0xbd => formXOff 0 .jle64X f
  | 0xc5 => formKOff .jslt64K f
  | 0xcd => formXOff 0 .jslt64X f
  | 0xd5 => formKOff .jsle64K f
  | 0xdd => formXOff 0 .jsle64X f
  | _ => .error .unknownEncoding

/-- 30_encoding.md R105, R121: class JMP32. -/
def decodeJmp32 (f : Fields) : Except DecodeError Instr :=
  match f.opcode.toNat with
  | 0x06 => formImm 0 .ja32 f
  | 0x16 => formKOff .jeq32K f
  | 0x1e => formXOff 0 .jeq32X f
  | 0x26 => formKOff .jgt32K f
  | 0x2e => formXOff 0 .jgt32X f
  | 0x36 => formKOff .jge32K f
  | 0x3e => formXOff 0 .jge32X f
  | 0x46 => formKOff .jset32K f
  | 0x4e => formXOff 0 .jset32X f
  | 0x56 => formKOff .jne32K f
  | 0x5e => formXOff 0 .jne32X f
  | 0x66 => formKOff .jsgt32K f
  | 0x6e => formXOff 0 .jsgt32X f
  | 0x76 => formKOff .jsge32K f
  | 0x7e => formXOff 0 .jsge32X f
  | 0xa6 => formKOff .jlt32K f
  | 0xae => formXOff 0 .jlt32X f
  | 0xb6 => formKOff .jle32K f
  | 0xbe => formXOff 0 .jle32X f
  | 0xc6 => formKOff .jslt32K f
  | 0xce => formXOff 0 .jslt32X f
  | 0xd6 => formKOff .jsle32K f
  | 0xde => formXOff 0 .jsle32X f
  | _ => .error .unknownEncoding

/-- 30_encoding.md R105, R120: class ALU64. -/
def decodeAlu64 (f : Fields) : Except DecodeError Instr :=
  match f.opcode.toNat with
  | 0x07 => formK 0 .add64K f
  | 0x0f => formX 0 .add64X f
  | 0x17 => formK 0 .sub64K f
  | 0x1f => formX 0 .sub64X f
  | 0x27 => formK 0 .mul64K f
  | 0x2f => formX 0 .mul64X f
  | 0x37 =>
    match f.offset.toNat with
    | 0 => formK 0 .div64K f
    | 1 => formK 1 .sdiv64K f
    | _ => .error .unknownEncoding
  | 0x3f =>
    match f.offset.toNat with
    | 0 => formX 0 .div64X f
    | 1 => formX 1 .sdiv64X f
    | _ => .error .unknownEncoding
  | 0x47 => formK 0 .or64K f
  | 0x4f => formX 0 .or64X f
  | 0x57 => formK 0 .and64K f
  | 0x5f => formX 0 .and64X f
  | 0x67 => formK 0 .lsh64K f
  | 0x6f => formX 0 .lsh64X f
  | 0x77 => formK 0 .rsh64K f
  | 0x7f => formX 0 .rsh64X f
  | 0x87 => formD 0 .neg64 f
  | 0x97 =>
    match f.offset.toNat with
    | 0 => formK 0 .mod64K f
    | 1 => formK 1 .smod64K f
    | _ => .error .unknownEncoding
  | 0x9f =>
    match f.offset.toNat with
    | 0 => formX 0 .mod64X f
    | 1 => formX 1 .smod64X f
    | _ => .error .unknownEncoding
  | 0xa7 => formK 0 .xor64K f
  | 0xaf => formX 0 .xor64X f
  | 0xb7 => formK 0 .mov64K f
  | 0xbf =>
    match f.offset.toNat with
    | 0 => formX 0 .mov64X f
    | 8 => formX 8 .movsx64_8 f
    | 16 => formX 16 .movsx64_16 f
    | 32 => formX 32 .movsx64_32 f
    | _ => .error .unknownEncoding
  | 0xc7 => formK 0 .arsh64K f
  | 0xcf => formX 0 .arsh64X f
  | 0xd7 =>
    match f.imm.toNat with
    | 16 => formD 16 .bswap16 f
    | 32 => formD 32 .bswap32 f
    | 64 => formD 64 .bswap64 f
    | _ => .error .unknownEncoding
  | _ => .error .unknownEncoding

/-- The instruction in a slot and, for a wide instruction, the slot after it (30_encoding.md R112 steps 2 to 4). Opcode
byte 0x00, the second slot of a wide instruction, decodes to `imm64Hi`, whose meaning raises the fault of R111
(assumption log entry 13). -/
def decode (f : Fields) (second : Option Fields) : Except DecodeError Instr :=
  match f.opcode.toNat % 8 with
  | 0 => decodeLd f second
  | 1 => decodeLdx f
  | 2 => decodeSt f
  | 3 => decodeStx f
  | 4 => decodeAlu f
  | 5 => decodeJmp f
  | 6 => decodeJmp32 f
  | _ => decodeAlu64 f

/-- The first instruction of a list of slots. -/
def decodeSlots (e : Endian) : List Slot → Except DecodeError Instr
  | [] => .error .unknownEncoding
  | s :: rest => decode (Fields.ofSlot e s) (rest.head?.map (Fields.ofSlot e))

/-! ## Encoding -/

/-- The fields of the slots of an instruction (30_encoding.md R102, R120 to R122). -/
def encodeFields : Instr → Fields × Option Fields
  | .add32K dst imm => (⟨0x04, dst, 0, 0, imm⟩, none)
  | .add32X dst src => (⟨0x0c, dst, src, 0, 0⟩, none)
  | .add64K dst imm => (⟨0x07, dst, 0, 0, imm⟩, none)
  | .add64X dst src => (⟨0x0f, dst, src, 0, 0⟩, none)
  | .sub32K dst imm => (⟨0x14, dst, 0, 0, imm⟩, none)
  | .sub32X dst src => (⟨0x1c, dst, src, 0, 0⟩, none)
  | .sub64K dst imm => (⟨0x17, dst, 0, 0, imm⟩, none)
  | .sub64X dst src => (⟨0x1f, dst, src, 0, 0⟩, none)
  | .mul32K dst imm => (⟨0x24, dst, 0, 0, imm⟩, none)
  | .mul32X dst src => (⟨0x2c, dst, src, 0, 0⟩, none)
  | .mul64K dst imm => (⟨0x27, dst, 0, 0, imm⟩, none)
  | .mul64X dst src => (⟨0x2f, dst, src, 0, 0⟩, none)
  | .div32K dst imm => (⟨0x34, dst, 0, 0, imm⟩, none)
  | .div32X dst src => (⟨0x3c, dst, src, 0, 0⟩, none)
  | .div64K dst imm => (⟨0x37, dst, 0, 0, imm⟩, none)
  | .div64X dst src => (⟨0x3f, dst, src, 0, 0⟩, none)
  | .sdiv32K dst imm => (⟨0x34, dst, 0, 1, imm⟩, none)
  | .sdiv32X dst src => (⟨0x3c, dst, src, 1, 0⟩, none)
  | .sdiv64K dst imm => (⟨0x37, dst, 0, 1, imm⟩, none)
  | .sdiv64X dst src => (⟨0x3f, dst, src, 1, 0⟩, none)
  | .or32K dst imm => (⟨0x44, dst, 0, 0, imm⟩, none)
  | .or32X dst src => (⟨0x4c, dst, src, 0, 0⟩, none)
  | .or64K dst imm => (⟨0x47, dst, 0, 0, imm⟩, none)
  | .or64X dst src => (⟨0x4f, dst, src, 0, 0⟩, none)
  | .and32K dst imm => (⟨0x54, dst, 0, 0, imm⟩, none)
  | .and32X dst src => (⟨0x5c, dst, src, 0, 0⟩, none)
  | .and64K dst imm => (⟨0x57, dst, 0, 0, imm⟩, none)
  | .and64X dst src => (⟨0x5f, dst, src, 0, 0⟩, none)
  | .lsh32K dst imm => (⟨0x64, dst, 0, 0, imm⟩, none)
  | .lsh32X dst src => (⟨0x6c, dst, src, 0, 0⟩, none)
  | .lsh64K dst imm => (⟨0x67, dst, 0, 0, imm⟩, none)
  | .lsh64X dst src => (⟨0x6f, dst, src, 0, 0⟩, none)
  | .rsh32K dst imm => (⟨0x74, dst, 0, 0, imm⟩, none)
  | .rsh32X dst src => (⟨0x7c, dst, src, 0, 0⟩, none)
  | .rsh64K dst imm => (⟨0x77, dst, 0, 0, imm⟩, none)
  | .rsh64X dst src => (⟨0x7f, dst, src, 0, 0⟩, none)
  | .neg32 dst => (⟨0x84, dst, 0, 0, 0⟩, none)
  | .neg64 dst => (⟨0x87, dst, 0, 0, 0⟩, none)
  | .mod32K dst imm => (⟨0x94, dst, 0, 0, imm⟩, none)
  | .mod32X dst src => (⟨0x9c, dst, src, 0, 0⟩, none)
  | .mod64K dst imm => (⟨0x97, dst, 0, 0, imm⟩, none)
  | .mod64X dst src => (⟨0x9f, dst, src, 0, 0⟩, none)
  | .smod32K dst imm => (⟨0x94, dst, 0, 1, imm⟩, none)
  | .smod32X dst src => (⟨0x9c, dst, src, 1, 0⟩, none)
  | .smod64K dst imm => (⟨0x97, dst, 0, 1, imm⟩, none)
  | .smod64X dst src => (⟨0x9f, dst, src, 1, 0⟩, none)
  | .xor32K dst imm => (⟨0xa4, dst, 0, 0, imm⟩, none)
  | .xor32X dst src => (⟨0xac, dst, src, 0, 0⟩, none)
  | .xor64K dst imm => (⟨0xa7, dst, 0, 0, imm⟩, none)
  | .xor64X dst src => (⟨0xaf, dst, src, 0, 0⟩, none)
  | .mov32K dst imm => (⟨0xb4, dst, 0, 0, imm⟩, none)
  | .mov32X dst src => (⟨0xbc, dst, src, 0, 0⟩, none)
  | .mov64K dst imm => (⟨0xb7, dst, 0, 0, imm⟩, none)
  | .mov64X dst src => (⟨0xbf, dst, src, 0, 0⟩, none)
  | .movsx32_8 dst src => (⟨0xbc, dst, src, 8, 0⟩, none)
  | .movsx32_16 dst src => (⟨0xbc, dst, src, 0x10, 0⟩, none)
  | .movsx64_8 dst src => (⟨0xbf, dst, src, 8, 0⟩, none)
  | .movsx64_16 dst src => (⟨0xbf, dst, src, 0x10, 0⟩, none)
  | .movsx64_32 dst src => (⟨0xbf, dst, src, 0x20, 0⟩, none)
  | .arsh32K dst imm => (⟨0xc4, dst, 0, 0, imm⟩, none)
  | .arsh32X dst src => (⟨0xcc, dst, src, 0, 0⟩, none)
  | .arsh64K dst imm => (⟨0xc7, dst, 0, 0, imm⟩, none)
  | .arsh64X dst src => (⟨0xcf, dst, src, 0, 0⟩, none)
  | .le16 dst => (⟨0xd4, dst, 0, 0, 0x10⟩, none)
  | .le32 dst => (⟨0xd4, dst, 0, 0, 0x20⟩, none)
  | .le64 dst => (⟨0xd4, dst, 0, 0, 0x40⟩, none)
  | .be16 dst => (⟨0xdc, dst, 0, 0, 0x10⟩, none)
  | .be32 dst => (⟨0xdc, dst, 0, 0, 0x20⟩, none)
  | .be64 dst => (⟨0xdc, dst, 0, 0, 0x40⟩, none)
  | .bswap16 dst => (⟨0xd7, dst, 0, 0, 0x10⟩, none)
  | .bswap32 dst => (⟨0xd7, dst, 0, 0, 0x20⟩, none)
  | .bswap64 dst => (⟨0xd7, dst, 0, 0, 0x40⟩, none)
  | .jeq64K dst off imm => (⟨0x15, dst, 0, off, imm⟩, none)
  | .jeq64X dst src off => (⟨0x1d, dst, src, off, 0⟩, none)
  | .jeq32K dst off imm => (⟨0x16, dst, 0, off, imm⟩, none)
  | .jeq32X dst src off => (⟨0x1e, dst, src, off, 0⟩, none)
  | .jgt64K dst off imm => (⟨0x25, dst, 0, off, imm⟩, none)
  | .jgt64X dst src off => (⟨0x2d, dst, src, off, 0⟩, none)
  | .jgt32K dst off imm => (⟨0x26, dst, 0, off, imm⟩, none)
  | .jgt32X dst src off => (⟨0x2e, dst, src, off, 0⟩, none)
  | .jge64K dst off imm => (⟨0x35, dst, 0, off, imm⟩, none)
  | .jge64X dst src off => (⟨0x3d, dst, src, off, 0⟩, none)
  | .jge32K dst off imm => (⟨0x36, dst, 0, off, imm⟩, none)
  | .jge32X dst src off => (⟨0x3e, dst, src, off, 0⟩, none)
  | .jset64K dst off imm => (⟨0x45, dst, 0, off, imm⟩, none)
  | .jset64X dst src off => (⟨0x4d, dst, src, off, 0⟩, none)
  | .jset32K dst off imm => (⟨0x46, dst, 0, off, imm⟩, none)
  | .jset32X dst src off => (⟨0x4e, dst, src, off, 0⟩, none)
  | .jne64K dst off imm => (⟨0x55, dst, 0, off, imm⟩, none)
  | .jne64X dst src off => (⟨0x5d, dst, src, off, 0⟩, none)
  | .jne32K dst off imm => (⟨0x56, dst, 0, off, imm⟩, none)
  | .jne32X dst src off => (⟨0x5e, dst, src, off, 0⟩, none)
  | .jsgt64K dst off imm => (⟨0x65, dst, 0, off, imm⟩, none)
  | .jsgt64X dst src off => (⟨0x6d, dst, src, off, 0⟩, none)
  | .jsgt32K dst off imm => (⟨0x66, dst, 0, off, imm⟩, none)
  | .jsgt32X dst src off => (⟨0x6e, dst, src, off, 0⟩, none)
  | .jsge64K dst off imm => (⟨0x75, dst, 0, off, imm⟩, none)
  | .jsge64X dst src off => (⟨0x7d, dst, src, off, 0⟩, none)
  | .jsge32K dst off imm => (⟨0x76, dst, 0, off, imm⟩, none)
  | .jsge32X dst src off => (⟨0x7e, dst, src, off, 0⟩, none)
  | .jlt64K dst off imm => (⟨0xa5, dst, 0, off, imm⟩, none)
  | .jlt64X dst src off => (⟨0xad, dst, src, off, 0⟩, none)
  | .jlt32K dst off imm => (⟨0xa6, dst, 0, off, imm⟩, none)
  | .jlt32X dst src off => (⟨0xae, dst, src, off, 0⟩, none)
  | .jle64K dst off imm => (⟨0xb5, dst, 0, off, imm⟩, none)
  | .jle64X dst src off => (⟨0xbd, dst, src, off, 0⟩, none)
  | .jle32K dst off imm => (⟨0xb6, dst, 0, off, imm⟩, none)
  | .jle32X dst src off => (⟨0xbe, dst, src, off, 0⟩, none)
  | .jslt64K dst off imm => (⟨0xc5, dst, 0, off, imm⟩, none)
  | .jslt64X dst src off => (⟨0xcd, dst, src, off, 0⟩, none)
  | .jslt32K dst off imm => (⟨0xc6, dst, 0, off, imm⟩, none)
  | .jslt32X dst src off => (⟨0xce, dst, src, off, 0⟩, none)
  | .jsle64K dst off imm => (⟨0xd5, dst, 0, off, imm⟩, none)
  | .jsle64X dst src off => (⟨0xdd, dst, src, off, 0⟩, none)
  | .jsle32K dst off imm => (⟨0xd6, dst, 0, off, imm⟩, none)
  | .jsle32X dst src off => (⟨0xde, dst, src, off, 0⟩, none)
  | .ja off => (⟨0x05, 0, 0, off, 0⟩, none)
  | .ja32 imm => (⟨0x06, 0, 0, 0, imm⟩, none)
  | .callHelper imm => (⟨0x85, 0, 0, 0, imm⟩, none)
  | .callLocal imm => (⟨0x85, 0, 1, 0, imm⟩, none)
  | .callBtf imm => (⟨0x85, 0, 2, 0, imm⟩, none)
  | .exit => (⟨0x95, 0, 0, 0, 0⟩, none)
  | .ldxW dst src off => (⟨0x61, dst, src, off, 0⟩, none)
  | .ldxH dst src off => (⟨0x69, dst, src, off, 0⟩, none)
  | .ldxB dst src off => (⟨0x71, dst, src, off, 0⟩, none)
  | .ldxDw dst src off => (⟨0x79, dst, src, off, 0⟩, none)
  | .stW dst off imm => (⟨0x62, dst, 0, off, imm⟩, none)
  | .stH dst off imm => (⟨0x6a, dst, 0, off, imm⟩, none)
  | .stB dst off imm => (⟨0x72, dst, 0, off, imm⟩, none)
  | .stDw dst off imm => (⟨0x7a, dst, 0, off, imm⟩, none)
  | .stxW dst src off => (⟨0x63, dst, src, off, 0⟩, none)
  | .stxH dst src off => (⟨0x6b, dst, src, off, 0⟩, none)
  | .stxB dst src off => (⟨0x73, dst, src, off, 0⟩, none)
  | .stxDw dst src off => (⟨0x7b, dst, src, off, 0⟩, none)
  | .ldxsW dst src off => (⟨0x81, dst, src, off, 0⟩, none)
  | .ldxsH dst src off => (⟨0x89, dst, src, off, 0⟩, none)
  | .ldxsB dst src off => (⟨0x91, dst, src, off, 0⟩, none)
  | .atomicAdd32 dst src off => (⟨0xc3, dst, src, off, 0⟩, none)
  | .atomicFetchAdd32 dst src off => (⟨0xc3, dst, src, off, 1⟩, none)
  | .atomicOr32 dst src off => (⟨0xc3, dst, src, off, 0x40⟩, none)
  | .atomicFetchOr32 dst src off => (⟨0xc3, dst, src, off, 0x41⟩, none)
  | .atomicAnd32 dst src off => (⟨0xc3, dst, src, off, 0x50⟩, none)
  | .atomicFetchAnd32 dst src off => (⟨0xc3, dst, src, off, 0x51⟩, none)
  | .atomicXor32 dst src off => (⟨0xc3, dst, src, off, 0xa0⟩, none)
  | .atomicFetchXor32 dst src off => (⟨0xc3, dst, src, off, 0xa1⟩, none)
  | .atomicXchg32 dst src off => (⟨0xc3, dst, src, off, 0xe1⟩, none)
  | .atomicCmpxchg32 dst src off => (⟨0xc3, dst, src, off, 0xf1⟩, none)
  | .atomicAdd64 dst src off => (⟨0xdb, dst, src, off, 0⟩, none)
  | .atomicFetchAdd64 dst src off => (⟨0xdb, dst, src, off, 1⟩, none)
  | .atomicOr64 dst src off => (⟨0xdb, dst, src, off, 0x40⟩, none)
  | .atomicFetchOr64 dst src off => (⟨0xdb, dst, src, off, 0x41⟩, none)
  | .atomicAnd64 dst src off => (⟨0xdb, dst, src, off, 0x50⟩, none)
  | .atomicFetchAnd64 dst src off => (⟨0xdb, dst, src, off, 0x51⟩, none)
  | .atomicXor64 dst src off => (⟨0xdb, dst, src, off, 0xa0⟩, none)
  | .atomicFetchXor64 dst src off => (⟨0xdb, dst, src, off, 0xa1⟩, none)
  | .atomicXchg64 dst src off => (⟨0xdb, dst, src, off, 0xe1⟩, none)
  | .atomicCmpxchg64 dst src off => (⟨0xdb, dst, src, off, 0xf1⟩, none)
  | .lddw dst imm nextImm => (⟨0x18, dst, 0, 0, imm⟩, some ⟨0, 0, 0, 0, nextImm⟩)
  | .ldMapFd dst imm => (⟨0x18, dst, 1, 0, imm⟩, some ⟨0, 0, 0, 0, 0⟩)
  | .ldMapValFd dst imm nextImm => (⟨0x18, dst, 2, 0, imm⟩, some ⟨0, 0, 0, 0, nextImm⟩)
  | .ldVarAddr dst imm => (⟨0x18, dst, 3, 0, imm⟩, some ⟨0, 0, 0, 0, 0⟩)
  | .ldCodeAddr dst imm => (⟨0x18, dst, 4, 0, imm⟩, some ⟨0, 0, 0, 0, 0⟩)
  | .ldMapIdx dst imm => (⟨0x18, dst, 5, 0, imm⟩, some ⟨0, 0, 0, 0, 0⟩)
  | .ldMapValIdx dst imm nextImm => (⟨0x18, dst, 6, 0, imm⟩, some ⟨0, 0, 0, 0, nextImm⟩)
  | .imm64Hi nextImm => (⟨0x00, 0, 0, 0, nextImm⟩, none)
  | .ldAbsW imm => (⟨0x20, 0, 0, 0, imm⟩, none)
  | .ldAbsH imm => (⟨0x28, 0, 0, 0, imm⟩, none)
  | .ldAbsB imm => (⟨0x30, 0, 0, 0, imm⟩, none)
  | .ldIndW src imm => (⟨0x40, 0, src, 0, imm⟩, none)
  | .ldIndH src imm => (⟨0x48, 0, src, 0, imm⟩, none)
  | .ldIndB src imm => (⟨0x50, 0, src, 0, imm⟩, none)

/-- The canonical words of an instruction (30_encoding.md R102). -/
def encode (i : Instr) : List (BitVec 64) :=
  (encodeFields i).1.toWord :: ((encodeFields i).2.map Fields.toWord).toList

/-- The slots of an instruction, as they stand in program text (30_encoding.md R103). -/
def encodeSlots (e : Endian) (i : Instr) : List Slot :=
  Slot.ofFields e (encodeFields i).1 :: ((encodeFields i).2.map (Slot.ofFields e)).toList

/-! ## The words of the opcode table -/

/-- The two slots of an instruction whose bits are `w`, numbered as the opcode table numbers them, the bits from
`nbits` on being zero. -/
def slotsOfTableWord (e : Endian) (nbits w : Nat) : Slot × Slot :=
  (Slot.ofFields e (Fields.ofWord (BitVec.ofNat 64 (w % 2 ^ nbits))),
   Slot.ofFields e (Fields.ofWord (BitVec.ofNat 64 (w % 2 ^ nbits / 2 ^ 64))))

/-- The instruction the decoder reads from the bits `w`, laid out as slots of a little-endian host. -/
def decodeTableWord (nbits w : Nat) : Option Instr :=
  match decodeSlots .little [(slotsOfTableWord .little nbits w).1, (slotsOfTableWord .little nbits w).2] with
  | .ok i => some i
  | .error _ => none

end Sys2Proof
end

