-- ==== Sys2Proof/Machine/Fetch.lean ====
section
/-! DEFINITION. Fetching and decoding the instruction at the program counter (10_state.md R38, 30_encoding.md R112), and
placing an instruction there. -/

namespace Sys2Proof.Machine

/-- `PROGRAM[i]`; none outside the program. The index is an integer and does not wrap (10_state.md R38, R39). -/
def slotAt (program : List Slot) (i : Int) : Option Slot := if 0 ≤ i then program[i.toNat]? else none

/-- The fault of a slot that does not decode at `pc` (30_encoding.md R112, 60_exceptions.md R433, R434). -/
def decodeFault (pc : Int) : DecodeError → FaultKind
  | .missingSecondSlot => .pcOutOfRange (pc + 1)
  | .unknownEncoding => .illegalInstruction pc
  | .badRegister => .illegalInstruction pc
  | .badSecondSlot => .illegalInstruction pc

/-- The instruction at `pc`, or the fault of its fetch (10_state.md R38). It reads program text, never data memory
(20_memory.md R61). -/
def fetch (s : State) : Except FaultKind Instr :=
  match slotAt s.params.program s.pc with
  | none => .error (.pcOutOfRange s.pc)
  | some slot =>
    match decode (Fields.ofSlot s.params.endian slot)
        ((slotAt s.params.program (s.pc + 1)).map (Fields.ofSlot s.params.endian)) with
    | .ok i => .ok i
    | .error e => .error (decodeFault s.pc e)

/-- The program with the two slots at the index `k`; slots missing before it are zero. -/
def placeSlots (program : List Slot) (k : Nat) (slots : Slot × Slot) : List Slot :=
  program.take k ++ List.replicate (k - program.length) ⟨0, 0, 0, 0, 0, 0, 0, 0⟩ ++ [slots.1, slots.2]
    ++ program.drop (k + 2)

end Sys2Proof.Machine
end

