-- ==== Sys2Proof/Machine/Step.lean ====
section
/-! DEFINITION. One step of the machine (10_state.md R38), and the placing of an instruction where the next step fetches
it. -/

namespace Sys2Proof.Machine

/-- One step (10_state.md R38): while the run is `Running`, the environment takes a turn (20_memory.md R74; assumption
log entry 10), then the instruction at `pc` is fetched and executed; a fetch that fails raises its fault. A run that
has ended takes no step (R50): assumption log entry 7. -/
def step (s : State) : Host.Outcome State Fault Refusal :=
  match s.status with
  | .running =>
    match fetch (envTurn s) with
    | .ok i => exec i (envTurn s)
    | .error k => raise k (envTurn s)
  | .exited result => .fault (.exited result)
  | .faulted kind => .fault (.faulted kind)

/-- The state with the instruction of the bits `w` (the opcode table's numbering) in the slots at `pc` and after it, in
the host byte order, and running. It stands for the platform's loading of a program (assumption log entry 6). A `pc`
below 0 names no slot and becomes 0. -/
def State.withFetchWord (s : State) (nbits w : Nat) : State :=
  { s with
    pc := s.pc.toNat
    status := .running
    params := { s.params with
      program := placeSlots s.params.program s.pc.toNat (slotsOfTableWord s.params.endian nbits w) } }

end Sys2Proof.Machine
end

