-- ==== Sys2Proof/Safety.lean ====
section
/-! DEFINITION. What counts as a safe run, what each instruction reads and writes as the spec's rules list it, and the
terms in which claims are stated: what a next state keeps, and which bytes a value is made of. -/

namespace Sys2Proof

/-! ## The instructions as the spec lists them -/

/-- The conformance group of the instruction (00_scope.md R4, the column `groups` of the opcode table). -/
def Instr.group : Instr → Group
  | .add32K .. | .add32X .. | .sub32K .. | .sub32X .. | .or32K .. | .or32X .. | .and32K .. | .and32X ..
  | .lsh32K .. | .lsh32X .. | .rsh32K .. | .rsh32X .. | .neg32 .. | .xor32K .. | .xor32X .. | .mov32K ..
  | .mov32X .. | .movsx32_8 .. | .movsx32_16 .. | .arsh32K .. | .arsh32X .. | .le16 .. | .le32 .. | .be16 ..
  | .be32 .. | .bswap16 .. | .bswap32 .. | .jeq32K .. | .jeq32X .. | .jgt32K .. | .jgt32X .. | .jge32K ..
  | .jge32X .. | .jset32K .. | .jset32X .. | .jne32K .. | .jne32X .. | .jsgt32K .. | .jsgt32X .. | .jsge32K ..
  | .jsge32X .. | .jlt32K .. | .jlt32X .. | .jle32K .. | .jle32X .. | .jslt32K .. | .jslt32X .. | .jsle32K ..
  | .jsle32X .. | .ja .. | .ja32 .. | .callHelper .. | .callLocal .. | .callBtf .. | .exit | .ldxW ..
  | .ldxH .. | .ldxB .. | .stW .. | .stH .. | .stB .. | .stxW .. | .stxH .. | .stxB .. | .ldxsW .. | .ldxsH ..
  | .ldxsB .. => .base32
  | .add64K .. | .add64X .. | .sub64K .. | .sub64X .. | .or64K .. | .or64X .. | .and64K .. | .and64X ..
  | .lsh64K .. | .lsh64X .. | .rsh64K .. | .rsh64X .. | .neg64 .. | .xor64K .. | .xor64X .. | .mov64K ..
  | .mov64X .. | .movsx64_8 .. | .movsx64_16 .. | .movsx64_32 .. | .arsh64K .. | .arsh64X .. | .le64 ..
  | .be64 .. | .bswap64 .. | .jeq64K .. | .jeq64X .. | .jgt64K .. | .jgt64X .. | .jge64K .. | .jge64X ..
  | .jset64K .. | .jset64X .. | .jne64K .. | .jne64X .. | .jsgt64K .. | .jsgt64X .. | .jsge64K .. | .jsge64X ..
  | .jlt64K .. | .jlt64X .. | .jle64K .. | .jle64X .. | .jslt64K .. | .jslt64X .. | .jsle64K .. | .jsle64X ..
  | .ldxDw .. | .stDw .. | .stxDw .. | .lddw .. | .ldMapFd .. | .ldMapValFd .. | .ldVarAddr .. | .ldCodeAddr ..
  | .ldMapIdx .. | .ldMapValIdx .. | .imm64Hi .. => .base64
  | .atomicAdd32 .. | .atomicFetchAdd32 .. | .atomicOr32 .. | .atomicFetchOr32 .. | .atomicAnd32 ..
  | .atomicFetchAnd32 .. | .atomicXor32 .. | .atomicFetchXor32 .. | .atomicXchg32 .. | .atomicCmpxchg32 .. => .atomic32
  | .atomicAdd64 .. | .atomicFetchAdd64 .. | .atomicOr64 .. | .atomicFetchOr64 .. | .atomicAnd64 ..
  | .atomicFetchAnd64 .. | .atomicXor64 .. | .atomicFetchXor64 .. | .atomicXchg64 .. | .atomicCmpxchg64 .. => .atomic64
  | .mul32K .. | .mul32X .. | .div32K .. | .div32X .. | .sdiv32K .. | .sdiv32X .. | .mod32K .. | .mod32X ..
  | .smod32K .. | .smod32X .. => .divmul32
  | .mul64K .. | .mul64X .. | .div64K .. | .div64X .. | .sdiv64K .. | .sdiv64X .. | .mod64K .. | .mod64X ..
  | .smod64K .. | .smod64X .. => .divmul64
  | .ldAbsW .. | .ldAbsH .. | .ldAbsB .. | .ldIndW .. | .ldIndH .. | .ldIndB .. => .packet

/-- The registers the instruction reads, in the order of its pseudocode (60_exceptions.md R435, R442). -/
def Instr.reads : Instr → List RegNum
  | .add32K dst _ | .add64K dst _ | .sub32K dst _ | .sub64K dst _ | .mul32K dst _ | .mul64K dst _
  | .div32K dst _ | .div64K dst _ | .sdiv32K dst _ | .sdiv64K dst _ | .or32K dst _ | .or64K dst _
  | .and32K dst _ | .and64K dst _ | .lsh32K dst _ | .lsh64K dst _ | .rsh32K dst _ | .rsh64K dst _ | .neg32 dst
  | .neg64 dst | .mod32K dst _ | .mod64K dst _ | .smod32K dst _ | .smod64K dst _ | .xor32K dst _
  | .xor64K dst _ | .arsh32K dst _ | .arsh64K dst _ | .le16 dst | .le32 dst | .le64 dst | .be16 dst | .be32 dst
  | .be64 dst | .bswap16 dst | .bswap32 dst | .bswap64 dst | .jeq64K dst _ _ | .jeq32K dst _ _
  | .jgt64K dst _ _ | .jgt32K dst _ _ | .jge64K dst _ _ | .jge32K dst _ _ | .jset64K dst _ _ | .jset32K dst _ _
  | .jne64K dst _ _ | .jne32K dst _ _ | .jsgt64K dst _ _ | .jsgt32K dst _ _ | .jsge64K dst _ _
  | .jsge32K dst _ _ | .jlt64K dst _ _ | .jlt32K dst _ _ | .jle64K dst _ _ | .jle32K dst _ _ | .jslt64K dst _ _
  | .jslt32K dst _ _ | .jsle64K dst _ _ | .jsle32K dst _ _ | .stW dst _ _ | .stH dst _ _ | .stB dst _ _
  | .stDw dst _ _ => [dst]
  | .add32X dst src | .add64X dst src | .sub32X dst src | .sub64X dst src | .mul32X dst src | .mul64X dst src
  | .div32X dst src | .div64X dst src | .sdiv32X dst src | .sdiv64X dst src | .or32X dst src | .or64X dst src
  | .and32X dst src | .and64X dst src | .lsh32X dst src | .lsh64X dst src | .rsh32X dst src | .rsh64X dst src
  | .mod32X dst src | .mod64X dst src | .smod32X dst src | .smod64X dst src | .xor32X dst src | .xor64X dst src
  | .arsh32X dst src | .arsh64X dst src | .jeq64X dst src _ | .jeq32X dst src _ | .jgt64X dst src _
  | .jgt32X dst src _ | .jge64X dst src _ | .jge32X dst src _ | .jset64X dst src _ | .jset32X dst src _
  | .jne64X dst src _ | .jne32X dst src _ | .jsgt64X dst src _ | .jsgt32X dst src _ | .jsge64X dst src _
  | .jsge32X dst src _ | .jlt64X dst src _ | .jlt32X dst src _ | .jle64X dst src _ | .jle32X dst src _
  | .jslt64X dst src _ | .jslt32X dst src _ | .jsle64X dst src _ | .jsle32X dst src _ | .stxW dst src _
  | .stxH dst src _ | .stxB dst src _ | .stxDw dst src _ | .atomicAdd32 dst src _ | .atomicFetchAdd32 dst src _
  | .atomicOr32 dst src _ | .atomicFetchOr32 dst src _ | .atomicAnd32 dst src _ | .atomicFetchAnd32 dst src _
  | .atomicXor32 dst src _ | .atomicFetchXor32 dst src _ | .atomicXchg32 dst src _ | .atomicAdd64 dst src _
  | .atomicFetchAdd64 dst src _ | .atomicOr64 dst src _ | .atomicFetchOr64 dst src _ | .atomicAnd64 dst src _
  | .atomicFetchAnd64 dst src _ | .atomicXor64 dst src _ | .atomicFetchXor64 dst src _
  | .atomicXchg64 dst src _ => [dst, src]
  | .atomicCmpxchg32 dst src _ | .atomicCmpxchg64 dst src _ => [dst, src, 0]
  | .mov32X _ src | .mov64X _ src | .movsx32_8 _ src | .movsx32_16 _ src | .movsx64_8 _ src | .movsx64_16 _ src
  | .movsx64_32 _ src | .ldxW _ src _ | .ldxH _ src _ | .ldxB _ src _ | .ldxDw _ src _ | .ldxsW _ src _
  | .ldxsH _ src _ | .ldxsB _ src _ => [src]
  | .mov32K .. | .mov64K .. | .ja .. | .ja32 .. | .callHelper .. | .callLocal .. | .callBtf .. | .exit
  | .lddw .. | .ldMapFd .. | .ldMapValFd .. | .ldVarAddr .. | .ldCodeAddr .. | .ldMapIdx .. | .ldMapValIdx ..
  | .imm64Hi .. | .ldAbsW .. | .ldAbsH .. | .ldAbsB .. | .ldIndW .. | .ldIndH .. | .ldIndB .. => []

/-- The registers the instruction writes itself; what a platform call writes is the platform's. -/
def Instr.writes : Instr → List RegNum
  | .add32K dst _ | .add32X dst _ | .add64K dst _ | .add64X dst _ | .sub32K dst _ | .sub32X dst _
  | .sub64K dst _ | .sub64X dst _ | .mul32K dst _ | .mul32X dst _ | .mul64K dst _ | .mul64X dst _
  | .div32K dst _ | .div32X dst _ | .div64K dst _ | .div64X dst _ | .sdiv32K dst _ | .sdiv32X dst _
  | .sdiv64K dst _ | .sdiv64X dst _ | .or32K dst _ | .or32X dst _ | .or64K dst _ | .or64X dst _ | .and32K dst _
  | .and32X dst _ | .and64K dst _ | .and64X dst _ | .lsh32K dst _ | .lsh32X dst _ | .lsh64K dst _
  | .lsh64X dst _ | .rsh32K dst _ | .rsh32X dst _ | .rsh64K dst _ | .rsh64X dst _ | .neg32 dst | .neg64 dst
  | .mod32K dst _ | .mod32X dst _ | .mod64K dst _ | .mod64X dst _ | .smod32K dst _ | .smod32X dst _
  | .smod64K dst _ | .smod64X dst _ | .xor32K dst _ | .xor32X dst _ | .xor64K dst _ | .xor64X dst _
  | .mov32K dst _ | .mov32X dst _ | .mov64K dst _ | .mov64X dst _ | .movsx32_8 dst _ | .movsx32_16 dst _
  | .movsx64_8 dst _ | .movsx64_16 dst _ | .movsx64_32 dst _ | .arsh32K dst _ | .arsh32X dst _ | .arsh64K dst _
  | .arsh64X dst _ | .le16 dst | .le32 dst | .le64 dst | .be16 dst | .be32 dst | .be64 dst | .bswap16 dst
  | .bswap32 dst | .bswap64 dst | .ldxW dst _ _ | .ldxH dst _ _ | .ldxB dst _ _ | .ldxDw dst _ _
  | .ldxsW dst _ _ | .ldxsH dst _ _ | .ldxsB dst _ _ | .lddw dst _ _ | .ldMapFd dst _ | .ldMapValFd dst _ _
  | .ldVarAddr dst _ | .ldCodeAddr dst _ | .ldMapIdx dst _ | .ldMapValIdx dst _ _ => [dst]
  | .atomicFetchAdd32 _ src _ | .atomicFetchOr32 _ src _ | .atomicFetchAnd32 _ src _
  | .atomicFetchXor32 _ src _ | .atomicXchg32 _ src _ | .atomicFetchAdd64 _ src _ | .atomicFetchOr64 _ src _
  | .atomicFetchAnd64 _ src _ | .atomicFetchXor64 _ src _ | .atomicXchg64 _ src _ => [src]
  | .atomicCmpxchg32 .. | .atomicCmpxchg64 .. => [0]
  | .jeq64K .. | .jeq64X .. | .jeq32K .. | .jeq32X .. | .jgt64K .. | .jgt64X .. | .jgt32K .. | .jgt32X ..
  | .jge64K .. | .jge64X .. | .jge32K .. | .jge32X .. | .jset64K .. | .jset64X .. | .jset32K .. | .jset32X ..
  | .jne64K .. | .jne64X .. | .jne32K .. | .jne32X .. | .jsgt64K .. | .jsgt64X .. | .jsgt32K .. | .jsgt32X ..
  | .jsge64K .. | .jsge64X .. | .jsge32K .. | .jsge32X .. | .jlt64K .. | .jlt64X .. | .jlt32K .. | .jlt32X ..
  | .jle64K .. | .jle64X .. | .jle32K .. | .jle32X .. | .jslt64K .. | .jslt64X .. | .jslt32K .. | .jslt32X ..
  | .jsle64K .. | .jsle64X .. | .jsle32K .. | .jsle32X .. | .ja .. | .ja32 .. | .callHelper .. | .callLocal ..
  | .callBtf .. | .exit | .stW .. | .stH .. | .stB .. | .stDw .. | .stxW .. | .stxH .. | .stxB .. | .stxDw ..
  | .atomicAdd32 .. | .atomicOr32 .. | .atomicAnd32 .. | .atomicXor32 .. | .atomicAdd64 .. | .atomicOr64 ..
  | .atomicAnd64 .. | .atomicXor64 .. | .imm64Hi .. | .ldAbsW .. | .ldAbsH .. | .ldAbsB .. | .ldIndW ..
  | .ldIndH .. | .ldIndB .. => []

/-- The instruction asks the platform for a state change: a helper call or a packet instruction (44_call_exit.md R321,
48_packet.md R428). -/
def Instr.asksPlatform : Instr → Bool
  | .callHelper .. | .callBtf .. | .ldAbsW .. | .ldAbsH .. | .ldAbsB .. | .ldIndW .. | .ldIndH .. | .ldIndB .. => true
  | _ => false

/-- The instruction is a store or an atomic operation (45_load_store.md R340, 46_atomic.md R370). -/
def Instr.stores : Instr → Bool
  | .stW .. | .stH .. | .stB .. | .stDw .. | .stxW .. | .stxH .. | .stxB .. | .stxDw .. | .atomicAdd32 ..
  | .atomicFetchAdd32 .. | .atomicOr32 .. | .atomicFetchOr32 .. | .atomicAnd32 .. | .atomicFetchAnd32 ..
  | .atomicXor32 .. | .atomicFetchXor32 .. | .atomicXchg32 .. | .atomicCmpxchg32 .. | .atomicAdd64 ..
  | .atomicFetchAdd64 .. | .atomicOr64 .. | .atomicFetchOr64 .. | .atomicAnd64 .. | .atomicFetchAnd64 ..
  | .atomicXor64 .. | .atomicFetchXor64 .. | .atomicXchg64 .. | .atomicCmpxchg64 .. => true
  | _ => false

/-- The displacement in the text of a jump or program-local call, in slots (30_encoding.md R116). -/
def Instr.displacement : Instr → Option Int
  | .jeq64K _ off _ | .jeq64X _ _ off | .jeq32K _ off _ | .jeq32X _ _ off | .jgt64K _ off _ | .jgt64X _ _ off
  | .jgt32K _ off _ | .jgt32X _ _ off | .jge64K _ off _ | .jge64X _ _ off | .jge32K _ off _ | .jge32X _ _ off
  | .jset64K _ off _ | .jset64X _ _ off | .jset32K _ off _ | .jset32X _ _ off | .jne64K _ off _
  | .jne64X _ _ off | .jne32K _ off _ | .jne32X _ _ off | .jsgt64K _ off _ | .jsgt64X _ _ off
  | .jsgt32K _ off _ | .jsgt32X _ _ off | .jsge64K _ off _ | .jsge64X _ _ off | .jsge32K _ off _
  | .jsge32X _ _ off | .jlt64K _ off _ | .jlt64X _ _ off | .jlt32K _ off _ | .jlt32X _ _ off | .jle64K _ off _
  | .jle64X _ _ off | .jle32K _ off _ | .jle32X _ _ off | .jslt64K _ off _ | .jslt64X _ _ off
  | .jslt32K _ off _ | .jslt32X _ _ off | .jsle64K _ off _ | .jsle64X _ _ off | .jsle32K _ off _
  | .jsle32X _ _ off | .ja off => some off.toInt
  | .ja32 imm | .callLocal imm => some imm.toInt
  | _ => none

/-- Class ALU without the byte swaps (40_alu_add_to_rsh.md R151): the 32-bit arithmetic instructions. -/
def Instr.isAlu32 : Instr → Bool
  | .add32K .. | .add32X .. | .sub32K .. | .sub32X .. | .mul32K .. | .mul32X .. | .div32K .. | .div32X ..
  | .sdiv32K .. | .sdiv32X .. | .or32K .. | .or32X .. | .and32K .. | .and32X .. | .lsh32K .. | .lsh32X ..
  | .rsh32K .. | .rsh32X .. | .neg32 .. | .mod32K .. | .mod32X .. | .smod32K .. | .smod32X .. | .xor32K ..
  | .xor32X .. | .mov32K .. | .mov32X .. | .movsx32_8 .. | .movsx32_16 .. | .arsh32K .. | .arsh32X .. => true
  | _ => false

/-- The 131 values of the opcode byte that begin no legal instruction (30_encoding.md R124). -/
def illegalOpcodes : List (BitVec 8) :=
  [0x00, 0x08, 0x10, 0x38, 0x58, 0x60, 0x68, 0x70, 0x78, 0x80, 0x88, 0x90, 0x98, 0xa0, 0xa8, 0xb0,
    0xb8, 0xc0, 0xc8, 0xd0, 0xd8, 0xe0, 0xe8, 0xf0, 0xf8] ++
  [0x01, 0x09, 0x11, 0x19, 0x21, 0x29, 0x31, 0x39, 0x41, 0x49, 0x51, 0x59, 0x99, 0xa1, 0xa9, 0xb1,
    0xb9, 0xc1, 0xc9, 0xd1, 0xd9, 0xe1, 0xe9, 0xf1, 0xf9] ++
  [0x02, 0x0a, 0x12, 0x1a, 0x22, 0x2a, 0x32, 0x3a, 0x42, 0x4a, 0x52, 0x5a, 0x82, 0x8a, 0x92, 0x9a,
    0xa2, 0xaa, 0xb2, 0xba, 0xc2, 0xca, 0xd2, 0xda, 0xe2, 0xea, 0xf2, 0xfa] ++
  [0x03, 0x0b, 0x13, 0x1b, 0x23, 0x2b, 0x33, 0x3b, 0x43, 0x4b, 0x53, 0x5b, 0x83, 0x8b, 0x93, 0x9b,
    0xa3, 0xab, 0xb3, 0xbb, 0xcb, 0xd3, 0xe3, 0xeb, 0xf3, 0xfb] ++
  [0x8c, 0xe4, 0xec, 0xf4, 0xfc] ++
  [0x0d, 0x8d, 0x9d, 0xe5, 0xed, 0xf5, 0xfd] ++
  [0x0e, 0x86, 0x8e, 0x96, 0x9e, 0xe6, 0xee, 0xf6, 0xfe] ++
  [0x8f, 0xdf, 0xe7, 0xef, 0xf7, 0xff]

namespace Machine

/-! ## Safe runs (70_reset_and_hazards.md R474) -/

/-- The run from `s` never faults: no number of steps leads to a faulted state. -/
def NeverFaults (s : State) : Prop :=
  ∀ (n : Nat) (t : State), Sys2Proof.core.run n s = .next t → ∀ k, t.status ≠ .faulted k

/-- The run from `s` ends with this result (10_state.md R50). -/
def ExitsWith (s : State) (result : Option Word) : Prop :=
  ∃ (n : Nat) (t : State), Sys2Proof.core.run n s = .next t ∧ t.status = .exited result

/-- What every step keeps: memory has its canonical form, the call stack is no deeper than `CALL_DEPTH_MAX`
(44_call_exit.md R322), and every return slot follows a slot of the program (10_state.md R42). -/
def Inv (s : State) : Prop :=
  s.mem.wf = true ∧ (∀ d, s.params.callDepthMax = some d → s.calls.length ≤ d) ∧
    ∀ t ∈ s.calls, 1 ≤ t ∧ t ≤ s.params.program.length

/-! ## What a next state keeps -/

/-- Every register outside the list reads as before. -/
def KeepsRegs (s t : State) (written : List RegNum) : Prop := ∀ r, isReg r = true → r ∉ written → t.reg r = s.reg r

/-- Every byte of memory reads as before. -/
def KeepsMem (s t : State) : Prop := ∀ a : Nat, t.mem.read a = s.mem.read a

/-- Every byte of memory outside the `n` bytes at `addr` reads as before. -/
def KeepsMemOutside (s t : State) (addr n : Nat) : Prop :=
  ∀ a : Nat, a < addr ∨ addr + n ≤ a → t.mem.read a = s.mem.read a

/-- The call stack, the status, the parameters, and the model's own fields are as before. -/
def KeepsRest (s t : State) : Prop :=
  t.calls = s.calls ∧ t.status = s.status ∧ t.params = s.params ∧ t.env = s.env ∧ t.draws = s.draws

/-- `t` is `s` with the value `v` in the register `dst` and `pc` advanced by `n`; nothing else differs. -/
def SetsReg (s t : State) (dst : RegNum) (v : Word) (n : Int) : Prop :=
  t.reg dst = some v ∧ KeepsRegs s t [dst] ∧ t.pc = s.pc + n ∧ KeepsMem s t ∧ KeepsRest s t

/-- The instruction completes: it writes `v` to `dst`, goes on to the next slot, and changes nothing else. -/
def Computes (i : Instr) (s : State) (dst : RegNum) (v : Word) : Prop :=
  ∃ t, exec i s = .next t ∧ SetsReg s t dst v 1

/-- The fields that neither an access of shared memory nor the environment changes. -/
def KeepsRun (s t : State) : Prop :=
  t.calls = s.calls ∧ t.status = s.status ∧ t.params = s.params ∧ t.draws = s.draws

/-- `t` is `s` with the status `Faulted(k)`, and nothing else differs (60_exceptions.md R431). -/
def FaultsWith (i : Instr) (s : State) (k : FaultKind) : Prop := exec i s = .next { s with status := .faulted k }

/-! ## Which bytes a value is made of (20_memory.md R66, R67) -/

/-- The number of the byte of an `n`-byte value that stands at the address offset `k`; byte 0 is the least
significant. -/
def lane (e : Endian) (n k : Nat) : Nat :=
  match e with
  | .little => k
  | .big => n - 1 - k

/-- `v` is the `n`-byte value, zero-extended, whose byte at the address offset `k` is `byte k`. -/
def MadeOf (e : Endian) (n : Nat) (v : Word) (byte : Nat → Byte) : Prop :=
  v.toNat < 2 ^ (8 * n) ∧ ∀ k, k < n → byteOf v (lane e n k) = byte k

/-- `v` is the `n`-byte value in memory at `addr`. -/
def HoldsAt (s : State) (addr : Word) (n : Nat) (v : Word) : Prop :=
  MadeOf s.params.endian n v fun k => s.mem.read (addr.toNat + k)

/-- `t` has the low `n` bytes of `v` at `addr`, and every other byte of memory as in `s`. -/
def StoresAt (s t : State) (addr : Word) (n : Nat) (v : Word) : Prop :=
  (∀ k, k < n → t.mem.read (addr.toNat + k) = byteOf v (lane s.params.endian n k)) ∧
    KeepsMemOutside s t addr.toNat n

/-- The access is performed (20_memory.md R62, R64, R70): it ends inside the address space, a grant covers it, and it is
aligned, unless it is a plain access and misaligned ones are allowed. -/
def Performed (p : Params) (addr : Word) (n : Nat) (k : AccessKind) : Prop :=
  addr.toNat + n ≤ 2 ^ 64 ∧
  (∃ g ∈ p.grants, n ∈ g.widths ∧ k ∈ g.kinds ∧ g.base.toNat ≤ addr.toNat ∧
    addr.toNat + n ≤ g.base.toNat + g.size) ∧
  (addr.toNat % n = 0 ∨ (k ≠ .atomic ∧ p.allowMisaligned = true))

/-- Another agent may access the byte (20_memory.md R74). -/
def SharedByte (p : Params) (a : Nat) : Prop := ∃ r ∈ p.shared, r.base.toNat ≤ a ∧ a < r.base.toNat + r.size

/-- The plain access is single-byte accesses (20_memory.md R73): it has more than one byte, some byte is shared, and
`PLAIN_ACCESS_ATOMIC` does not make it one event. -/
def Torn (p : Params) (addr : Word) (n : Nat) : Prop :=
  1 < n ∧ (∃ k, k < n ∧ SharedByte p (addr.toNat + k)) ∧
    ¬(p.plainAccessAtomic = true ∧ addr.toNat % n = 0)

/-- `f` is what is left of `e` after some number of turns. -/
def Environment.Leads (e f : Environment) : Prop := ∃ n, f = Environment.after n e

/-- The turn is one the environment takes from now on. -/
def Environment.Comes (e : Environment) (t : EnvTurn) : Prop := ∃ n, (Environment.after n e).next = t

/-- The byte at `a` is `old`, or it is shared and a coming turn of the environment writes `b` there (20_memory.md R74,
R83). -/
def Settled (s : State) (a : Nat) (old b : Byte) : Prop :=
  b = old ∨ (SharedByte s.params a ∧ ∃ turn, s.env.Comes turn ∧ ∃ w ∈ turn, w.1.toNat = a ∧ w.2 = b)

/-! ## The shape of a result statement -/

/-- A binary operation in its four forms gives `f` of the operands at the operation's width, where the source operand
meets `ok` (30_encoding.md R113, R114; 40_alu_add_to_rsh.md R150, R151). -/
def BinaryGives (k32 : RegNum → Imm → Instr) (x32 : RegNum → RegNum → Instr) (g32 : Group)
    (k64 : RegNum → Imm → Instr) (x64 : RegNum → RegNum → Instr) (g64 : Group)
    (ok : (w : Nat) → BitVec w → Prop) (f : (w : Nat) → BitVec w → BitVec w → BitVec w) : Prop :=
  (∀ (s : State) (dst : RegNum) (imm : Imm) (a : Word), supports s.params.groups g32 = true → s.reg dst = some a →
    ok 32 imm → Computes (k32 dst imm) s dst ((f 32 (a.setWidth 32) imm).setWidth 64)) ∧
  (∀ (s : State) (dst src : RegNum) (a b : Word), supports s.params.groups g32 = true → s.reg dst = some a →
    s.reg src = some b → ok 32 (b.setWidth 32) →
    Computes (x32 dst src) s dst ((f 32 (a.setWidth 32) (b.setWidth 32)).setWidth 64)) ∧
  (∀ (s : State) (dst : RegNum) (imm : Imm) (a : Word), supports s.params.groups g64 = true → s.reg dst = some a →
    ok 64 (imm.signExtend 64) → Computes (k64 dst imm) s dst (f 64 a (imm.signExtend 64))) ∧
  (∀ (s : State) (dst src : RegNum) (a b : Word), supports s.params.groups g64 = true → s.reg dst = some a →
    s.reg src = some b → ok 64 b → Computes (x64 dst src) s dst (f 64 a b))

/-- An operation on the destination register gives `f` of its value and the host byte order. -/
def UnaryGives (mk : RegNum → Instr) (g : Group) (f : Endian → Word → Word → Prop) : Prop :=
  ∀ (s : State) (dst : RegNum) (a : Word), supports s.params.groups g = true → s.reg dst = some a →
    ∃ v, f s.params.endian a v ∧ Computes (mk dst) s dst v

/-- A move from a register gives `f` of it. The destination need not hold a value. -/
def MoveGives (mk : RegNum → RegNum → Instr) (g : Group) (f : Word → Word) : Prop :=
  ∀ (s : State) (dst src : RegNum) (b : Word), supports s.params.groups g = true → isReg dst = true →
    s.reg src = some b → Computes (mk dst src) s dst (f b)

/-- A conditional jump in both forms of class JMP is taken iff `cond` holds, and changes `pc` only (43_jump.md R260 to
R263). -/
def Jumps64If (k : RegNum → Offset → Imm → Instr) (x : RegNum → RegNum → Offset → Instr)
    (cond : Word → Word → Prop) : Prop :=
  (∀ (s : State) (dst : RegNum) (off : Offset) (imm : Imm) (a : Word), supports s.params.groups .base64 = true →
    s.reg dst = some a →
    (cond a (imm.signExtend 64) → exec (k dst off imm) s = .next { s with pc := s.pc + 1 + off.toInt }) ∧
    (¬cond a (imm.signExtend 64) → exec (k dst off imm) s = .next { s with pc := s.pc + 1 })) ∧
  (∀ (s : State) (dst src : RegNum) (off : Offset) (a b : Word), supports s.params.groups .base64 = true →
    s.reg dst = some a → s.reg src = some b →
    (cond a b → exec (x dst src off) s = .next { s with pc := s.pc + 1 + off.toInt }) ∧
    (¬cond a b → exec (x dst src off) s = .next { s with pc := s.pc + 1 }))

/-- A conditional jump in both forms of class JMP32 is taken iff `cond` holds of the low 32 bits, and changes `pc` only
(43_jump.md R260 to R263). -/
def Jumps32If (k : RegNum → Offset → Imm → Instr) (x : RegNum → RegNum → Offset → Instr)
    (cond : BitVec 32 → BitVec 32 → Prop) : Prop :=
  (∀ (s : State) (dst : RegNum) (off : Offset) (imm : Imm) (a : Word), s.reg dst = some a →
    (cond (a.setWidth 32) imm → exec (k dst off imm) s = .next { s with pc := s.pc + 1 + off.toInt }) ∧
    (¬cond (a.setWidth 32) imm → exec (k dst off imm) s = .next { s with pc := s.pc + 1 })) ∧
  (∀ (s : State) (dst src : RegNum) (off : Offset) (a b : Word), s.reg dst = some a → s.reg src = some b →
    (cond (a.setWidth 32) (b.setWidth 32) → exec (x dst src off) s = .next { s with pc := s.pc + 1 + off.toInt }) ∧
    (¬cond (a.setWidth 32) (b.setWidth 32) → exec (x dst src off) s = .next { s with pc := s.pc + 1 }))

/-- A load that is one event gives `ext` of the value at the effective address. -/
def LoadGives (mk : RegNum → RegNum → Offset → Instr) (g : Group) (n : Nat) (ext : Word → Word) : Prop :=
  ∀ (s : State) (dst src : RegNum) (off : Offset) (base : Word), supports s.params.groups g = true →
    isReg dst = true → s.reg src = some base → Performed s.params (base + off.signExtend 64) n .load →
    ¬Torn s.params (base + off.signExtend 64) n →
    ∃ v, HoldsAt s (base + off.signExtend 64) n v ∧ Computes (mk dst src off) s dst (ext v)

/-- A torn load completes; each byte it reads, and each byte of memory after it, is what stood there or what the
environment has written since. -/
def LoadTornGives (mk : RegNum → RegNum → Offset → Instr) (g : Group) (n : Nat) (ext : Word → Word) : Prop :=
  ∀ (s : State) (dst src : RegNum) (off : Offset) (base : Word), supports s.params.groups g = true →
    isReg dst = true → s.reg src = some base → s.mem.wf = true →
    Performed s.params (base + off.signExtend 64) n .load → Torn s.params (base + off.signExtend 64) n →
    ∃ t v, exec (mk dst src off) s = .next t ∧ t.reg dst = some (ext v) ∧ v.toNat < 2 ^ (8 * n) ∧
      (∀ k, k < n → Settled s ((base + off.signExtend 64).toNat + k)
        (s.mem.read ((base + off.signExtend 64).toNat + k)) (byteOf v (lane s.params.endian n k))) ∧
      (∀ a, Settled s a (s.mem.read a) (t.mem.read a)) ∧
      KeepsRegs s t [dst] ∧ t.pc = s.pc + 1 ∧ KeepsRun s t ∧ s.env.Leads t.env

/-- The instruction stores the low `n` bytes of `v` at `addr` as one event and goes on. -/
def StoresThen (i : Instr) (s : State) (addr : Word) (n : Nat) (v : Word) : Prop :=
  ∃ t, exec i s = .next t ∧ StoresAt s t addr n v ∧ KeepsRegs s t [] ∧ t.pc = s.pc + 1 ∧ KeepsRest s t

/-- The instruction stores the low `n` bytes of `v` at `addr` byte by byte and goes on; each byte of memory is then what
the store or the state before gave it, or what the environment has written since. -/
def StoresTornThen (i : Instr) (s : State) (addr : Word) (n : Nat) (v : Word) : Prop :=
  ∃ t, exec i s = .next t ∧
    (∀ k, k < n → Settled s (addr.toNat + k) (byteOf v (lane s.params.endian n k)) (t.mem.read (addr.toNat + k))) ∧
    (∀ a, a < addr.toNat ∨ addr.toNat + n ≤ a → Settled s a (s.mem.read a) (t.mem.read a)) ∧
    KeepsRegs s t [] ∧ t.pc = s.pc + 1 ∧ KeepsRun s t ∧ s.env.Leads t.env

/-- A store of an immediate, as one event (45_load_store.md R342). -/
def StoreImmGives (mk : RegNum → Offset → Imm → Instr) (g : Group) (n : Nat) : Prop :=
  ∀ (s : State) (dst : RegNum) (off : Offset) (imm : Imm) (base : Word), supports s.params.groups g = true →
    s.reg dst = some base → s.mem.wf = true → Performed s.params (base + off.signExtend 64) n .store →
    (¬Torn s.params (base + off.signExtend 64) n →
      StoresThen (mk dst off imm) s (base + off.signExtend 64) n (imm.signExtend 64)) ∧
    (Torn s.params (base + off.signExtend 64) n →
      StoresTornThen (mk dst off imm) s (base + off.signExtend 64) n (imm.signExtend 64))

/-- A store of a register (45_load_store.md R342). -/
def StoreRegGives (mk : RegNum → RegNum → Offset → Instr) (g : Group) (n : Nat) : Prop :=
  ∀ (s : State) (dst src : RegNum) (off : Offset) (base v : Word), supports s.params.groups g = true →
    s.reg dst = some base → s.reg src = some v → s.mem.wf = true →
    Performed s.params (base + off.signExtend 64) n .store →
    (¬Torn s.params (base + off.signExtend 64) n →
      StoresThen (mk dst src off) s (base + off.signExtend 64) n v) ∧
    (Torn s.params (base + off.signExtend 64) n →
      StoresTornThen (mk dst src off) s (base + off.signExtend 64) n v)

/-- An atomic operation without FETCH stores `f old src` where `old` stands at the effective address (20_memory.md R72,
46_atomic.md R372). -/
def AtomicGives (mk : RegNum → RegNum → Offset → Instr) (g : Group) (n : Nat) (f : Word → Word → Word) : Prop :=
  ∀ (s : State) (dst src : RegNum) (off : Offset) (base v : Word), supports s.params.groups g = true →
    s.reg dst = some base → s.reg src = some v → s.mem.wf = true →
    Performed s.params (base + off.signExtend 64) n .atomic →
    ∃ old, HoldsAt s (base + off.signExtend 64) n old ∧
      StoresThen (mk dst src off) s (base + off.signExtend 64) n (f old v)

/-- An atomic operation with FETCH does so too, and the source register receives `old` (46_atomic.md R373, R375). -/
def AtomicFetchGives (mk : RegNum → RegNum → Offset → Instr) (g : Group) (n : Nat) (f : Word → Word → Word) : Prop :=
  ∀ (s : State) (dst src : RegNum) (off : Offset) (base v : Word), supports s.params.groups g = true →
    s.reg dst = some base → s.reg src = some v → s.mem.wf = true →
    Performed s.params (base + off.signExtend 64) n .atomic →
    ∃ old t, HoldsAt s (base + off.signExtend 64) n old ∧ exec (mk dst src off) s = .next t ∧
      StoresAt s t (base + off.signExtend 64) n (f old v) ∧ t.reg src = some old ∧ KeepsRegs s t [src] ∧
      t.pc = s.pc + 1 ∧ KeepsRest s t

/-- CMPXCHG (46_atomic.md R376): where the low `n` bytes of r0 equal the value `old` in memory, the source value is
stored; else no byte changes; r0 receives `old` either way. -/
def CmpxchgGives (mk : RegNum → RegNum → Offset → Instr) (g : Group) (n : Nat) : Prop :=
  ∀ (s : State) (dst src : RegNum) (off : Offset) (base v c : Word), supports s.params.groups g = true →
    s.reg dst = some base → s.reg src = some v → s.reg 0 = some c → s.mem.wf = true →
    Performed s.params (base + off.signExtend 64) n .atomic →
    ∃ old t, HoldsAt s (base + off.signExtend 64) n old ∧ exec (mk dst src off) s = .next t ∧
      (old.toNat = c.toNat % 2 ^ (8 * n) → StoresAt s t (base + off.signExtend 64) n v) ∧
      (old.toNat ≠ c.toNat % 2 ^ (8 * n) → KeepsMem s t) ∧
      t.reg 0 = some old ∧ KeepsRegs s t [0] ∧ t.pc = s.pc + 1 ∧ KeepsRest s t

/-- A wide instruction completes: it writes `v` to `dst`, goes on behind its two slots, and changes nothing else. -/
def ComputesWide (i : Instr) (s : State) (dst : RegNum) (v : Word) : Prop :=
  ∃ t, exec i s = .next t ∧ SetsReg s t dst v 2

/-- The instruction completes with the registers and bytes that the platform's answer names given their content (the
last one where a register or byte is named twice), and the rest unchanged (44_call_exit.md R321). -/
def AnsweredBy (i : Instr) (s : State) (regs : List (RegNum × Option Word)) (bytes : List (Word × Byte)) : Prop :=
  ∃ t, exec i s = .next t ∧ t.pc = s.pc + 1 ∧
    (∀ r, isReg r = true → t.reg r = (regs.reverse.lookup r).getD (s.reg r)) ∧
    (∀ a : Word, t.mem.read a.toNat = (bytes.reverse.lookup a).getD (s.mem.read a.toNat)) ∧
    t.calls = s.calls ∧ t.status = s.status ∧ t.params = s.params ∧ t.env = s.env ∧ t.draws = s.draws + 1

/-- Where the platform answers a call of `fn` with registers and bytes, the instruction completes with them. -/
def AskGives (i : Instr) (fn : PlatformFn) (s : State) : Prop :=
  ∀ (regs : List (RegNum × Option Word)) (bytes : List (Word × Byte)),
    answerOf s fn = some (.returns regs bytes) → AnsweredBy i s regs bytes

/-- Where the platform has no such function, or its call fails, the instruction raises `PlatformFault` (60_exceptions.md
R438). -/
def AskFaults (i : Instr) (fn : PlatformFn) (s : State) : Prop :=
  answerOf s fn = none ∨ answerOf s fn = some .fails → FaultsWith i s (.platformFault (.call fn))

/-- The platform has the function, and its relation gives this answer for the registers and memory of the state
(10_state.md R45, 44_call_exit.md R321). -/
def Gives (s : State) (fn : PlatformFn) (a : Answer) : Prop :=
  ∃ e, (s.params.platform.find? fun e => e.fn == fn) = some e ∧ ∃ r ∈ e.rules,
    (∀ w ∈ r.regs, s.reg w.1 = w.2) ∧ (∀ w ∈ r.bytes, s.mem.read w.1.toNat = w.2) ∧ r.answer = a

/-- The instruction does what one of the answers says that the relation of `fn` gives for the state; where it gives none,
or one that is a fault is taken, it raises `PlatformFault` (44_call_exit.md R321, 60_exceptions.md R438). -/
def TakesAnAnswer (i : Instr) (fn : PlatformFn) (s : State) : Prop :=
  ((∃ a, Gives s fn a) →
    (∃ regs bytes, Gives s fn (.returns regs bytes) ∧ AnsweredBy i s regs bytes) ∨
    (Gives s fn .fails ∧ FaultsWith i s (.platformFault (.call fn)))) ∧
  ((∀ a, ¬Gives s fn a) → FaultsWith i s (.platformFault (.call fn)))

end Machine

end Sys2Proof
end

