-- ==== Sys2Proof/Certificates/Slice0/Obligations.lean ====
section
/-! DEFINITION. The statements. Each docstring says what is stated; OBLIGATIONS.json says which part of spec/ it rests on.
The shapes (what completing with a result means) stand in Sys2Proof/Safety.lean. -/

open Sys2Proof Sys2Proof.Machine

/-- Launch: pc 0, empty call stack, Running, registers and memory as the platform gives them; reset is one launch.
It rests on the spec's own decisions D7, D8, D28 and D30 and on the model's choices of log entries 1, 3 and 5. -/
def Obligations.LaunchIsAsR52Says : Prop :=
  (∀ (p : Params) (regs : Vector (Option Word) 11) (mem : Memory) (env : Environment),
    (State.launch p regs mem env).pc = 0 ∧ (State.launch p regs mem env).calls = [] ∧
    (State.launch p regs mem env).status = .running ∧ (State.launch p regs mem env).x = regs ∧
    (State.launch p regs mem env).mem = mem ∧ (State.launch p regs mem env).params = p) ∧
  State.reset.pc = 0 ∧ State.reset.calls = [] ∧ State.reset.status = .running ∧
  State.reset.params = defaultParams ∧
  (∀ r, isReg r = true → State.reset.reg r = some 0) ∧ (∀ a : Nat, State.reset.mem.read a = 0)

/-- The invariant holds at reset. It rests on the model's choices of log entries 3 and 5. -/
def Obligations.InvariantHoldsAtReset : Prop :=
  Inv State.reset

/-- Every step keeps the invariant, from every state that meets it. It rests on the spec's own decisions D8 and D28.
-/
def Obligations.StepKeepsInvariant : Prop :=
  ∀ s t : State, Inv s → step s = .next t → Inv t

/-- Decoding the slots of a well-formed instruction gives the instruction back, on both hosts. It rests on the
spec's own decision D5 and on the model's choices of log entry 13. -/
def Obligations.DecodeOfEncodeIsTheInstruction : Prop :=
  ∀ (i : Instr) (e : Endian) (rest : List Slot), i.wellFormed = true → decodeSlots e (encodeSlots e i ++ rest) = .ok i

/-- What decodes is exactly the slots of a well-formed instruction: no bit is ignored. It rests on the spec's own
decisions D5, D6, D22 and D25 and on the model's choices of log entry 13. -/
def Obligations.OnlyEncodingsDecode : Prop :=
  ∀ (e : Endian) (slots : List Slot) (i : Instr), decodeSlots e slots = .ok i →
    i.wellFormed = true ∧ ∃ rest, slots = encodeSlots e i ++ rest

/-- A byte string is a program iff its length is a multiple of 8, and its slots are its bytes in order. -/
def Obligations.ProgramIsWholeSlots : Prop :=
  ∀ bytes : List Byte,
    (bytes.length % 8 ≠ 0 → slotsOfBytes bytes = none) ∧
    (bytes.length % 8 = 0 → ∃ slots, slotsOfBytes bytes = some slots ∧
      (slots.flatMap fun s => [s.b0, s.b1, s.b2, s.b3, s.b4, s.b5, s.b6, s.b7]) = bytes)

/-- A few words written out from the spec's encodings decode to the instructions they stand for. -/
def Obligations.SpecWordsDecode : Prop :=
  decodeSlots .little [⟨0x07, 0x01, 0, 0, 0x44, 0x33, 0x22, 0x11⟩] = .ok (.add64K 1 0x11223344) ∧
  decodeSlots .big [⟨0x07, 0x10, 0, 0, 0x11, 0x22, 0x33, 0x44⟩] = .ok (.add64K 1 0x11223344) ∧
  decodeSlots .little [⟨0x94, 0x01, 0, 0, 0xff, 0xff, 0xff, 0xff⟩] = .ok (.mod32K 1 0xffffffff) ∧
  decodeSlots .little [⟨0xd4, 0x01, 0, 0, 0x10, 0, 0, 0⟩] = .ok (.le16 1) ∧
  decodeSlots .big [⟨0xd4, 0x10, 0, 0, 0, 0, 0, 0x10⟩] = .ok (.le16 1) ∧
  decodeSlots .little [⟨0x05, 0, 0xfd, 0xff, 0, 0, 0, 0⟩] = .ok (.ja (-3)) ∧
  decodeSlots .little [⟨0x1d, 0x21, 0x03, 0, 0, 0, 0, 0⟩] = .ok (.jeq64X 1 2 3) ∧
  decodeSlots .little [⟨0x85, 0x10, 0, 0, 0x03, 0, 0, 0⟩] = .ok (.callLocal 3) ∧
  decodeSlots .big [⟨0x85, 0x01, 0, 0, 0, 0, 0, 0x03⟩] = .ok (.callLocal 3) ∧
  decodeSlots .little [⟨0x95, 0, 0, 0, 0, 0, 0, 0⟩] = .ok .exit ∧
  decodeSlots .little [⟨0x61, 0x21, 0x08, 0, 0, 0, 0, 0⟩] = .ok (.ldxW 1 2 8) ∧
  decodeSlots .little [⟨0x62, 0x01, 0xf8, 0xff, 0x67, 0x45, 0x23, 0x81⟩] = .ok (.stW 1 (-8) 0x81234567) ∧
  decodeSlots .little [⟨0xc3, 0x21, 0, 0, 0xf1, 0, 0, 0⟩] = .ok (.atomicCmpxchg32 1 2 0) ∧
  decodeSlots .little [⟨0x18, 0x01, 0, 0, 0x88, 0x77, 0x66, 0x55⟩, ⟨0, 0, 0, 0, 0x44, 0x33, 0x22, 0x11⟩] =
    .ok (.lddw 1 0x55667788 0x11223344) ∧
  decodeSlots .big [⟨0x18, 0x10, 0, 0, 0x55, 0x66, 0x77, 0x88⟩, ⟨0, 0, 0, 0, 0x11, 0x22, 0x33, 0x44⟩] =
    .ok (.lddw 1 0x55667788 0x11223344) ∧
  decodeSlots .little [⟨0x40, 0x70, 0, 0, 0x0e, 0, 0, 0⟩] = .ok (.ldIndW 7 14)

/-- A step runs the instruction at pc. It rests on the spec's own decision D31 and on the model's choices of log
entry 10. -/
def Obligations.StepRunsTheDecodedInstruction : Prop :=
  ∀ (s : State) (i : Instr), s.status = .running → 0 ≤ s.pc →
    decodeSlots s.params.endian (s.params.program.drop s.pc.toNat) = .ok i →
    step s = exec i (envTurn s) ∧ (s.params.shared = [] → step s = exec i s)

/-- A pc outside the program faults with PcOutOfRange(pc) at the fetch. It rests on the spec's own decisions D7, D8,
D10 and D31 and on the model's choices of log entry 10. -/
def Obligations.FetchOutsideProgramFaults : Prop :=
  ∀ s : State, s.status = .running → (s.pc < 0 ∨ (s.params.program.length : Int) ≤ s.pc) →
    step s = .next { envTurn s with status := .faulted (.pcOutOfRange s.pc) }

/-- Slots that no well-formed instruction has fault with IllegalInstruction(pc); a wide one cut off by the end of
the program with PcOutOfRange(pc + 1). It rests on the spec's own decisions D5, D6, D7, D25 and D31 and on the
model's choices of log entries 10 and 13. -/
def Obligations.IllegalEncodingFaults : Prop :=
  ∀ (s : State) (slot : Slot) (rest : List Slot), s.status = .running → 0 ≤ s.pc →
    s.params.program.drop s.pc.toNat = slot :: rest →
    ((∀ i : Instr, i.wellFormed = true → ¬ (encodeSlots s.params.endian i <+: slot :: rest)) →
      (∀ (i : Instr) (second : Slot), i.wellFormed = true → rest = [] →
        encodeSlots s.params.endian i ≠ [slot, second]) →
      step s = .next { envTurn s with status := .faulted (.illegalInstruction s.pc) }) ∧
    ((∃ (i : Instr) (second : Slot), i.wellFormed = true ∧ encodeSlots s.params.endian i = [slot, second]) →
      rest = [] → step s = .next { envTurn s with status := .faulted (.pcOutOfRange (s.pc + 1)) })

/-- 131 opcode bytes fault whatever the other fields; each of the other 125 begins a legal instruction. It rests on
the spec's own decisions D6, D7, D9 and D31 and on the model's choices of log entry 10. -/
def Obligations.UndefinedOpcodeBytesFault : Prop :=
  illegalOpcodes.length = 131 ∧ illegalOpcodes.Nodup ∧
  (∀ (s : State) (slot : Slot) (rest : List Slot), s.status = .running → 0 ≤ s.pc →
    s.params.program.drop s.pc.toNat = slot :: rest → slot.b0 ∈ illegalOpcodes →
    step s = .next { envTurn s with status := .faulted (.illegalInstruction s.pc) }) ∧
  (∀ b : BitVec 8, b ∉ illegalOpcodes →
    ∃ i : Instr, i.wellFormed = true ∧ (encodeFields i).1.opcode = b ∧ ∀ n, i ≠ .imm64Hi n)

/-- A fault is precise: a faulting instruction changes the status and nothing else. It rests on the spec's own
decision D7 and on the model's choices of log entry 7. -/
def Obligations.FaultChangesOnlyStatus : Prop :=
  ∀ (i : Instr) (s t : State) (k : FaultKind), s.status = .running → exec i s = .next t → t.status = .faulted k →
    t = { s with status := .faulted k }

/-- No step changes a parameter of the run. It rests on the spec's own decision D11. -/
def Obligations.ParametersNeverChange : Prop :=
  ∀ s t : State, step s = .next t → t.params = s.params

/-- Every Running state has a next state; an instruction is never refused. It rests on the spec's own decision D7. -/
def Obligations.RunningStateAlwaysSteps : Prop :=
  (∀ s : State, s.status = .running → ∃ t, step s = .next t) ∧ ∀ (i : Instr) (s : State), ∃ t, exec i s = .next t

/-- An Exited or Faulted run takes no further step. It rests on the spec's own decisions D7 and D29 and on the
model's choices of log entry 7. -/
def Obligations.EndedRunTakesNoStep : Prop :=
  ∀ s : State, (∀ r, s.status = .exited r → step s = .fault (.exited r)) ∧
    ∀ k, s.status = .faulted k → step s = .fault (.faulted k)

/-- Every control transfer goes to a target fixed in the program text or to the last entry of calls. It rests on the
spec's own decisions D8 and D28. -/
def Obligations.PcMovesOnlyAsTheTextSays : Prop :=
  ∀ (i : Instr) (s t : State), exec i s = .next t →
    t.pc = s.pc + 1 ∨ t.pc = s.pc + 2 ∨ (∃ d, i.displacement = some d ∧ t.pc = s.pc + 1 + d) ∨
    (i = .exit ∧ s.calls.getLast? = some t.pc) ∨ (t.pc = s.pc ∧ t.status ≠ .running)

/-- An instruction changes no register but those its rule says it writes, and never the call stack unless it is a
call or EXIT. It rests on the spec's own decisions D27 and D28. -/
def Obligations.OnlyListedRegistersChange : Prop :=
  ∀ (i : Instr) (s t : State), exec i s = .next t →
    (i.asksPlatform = false → KeepsRegs s t i.writes) ∧
    ((∀ imm, i ≠ .callLocal imm) → i ≠ .exit → t.calls = s.calls)

/-- An instruction that is no store, atomic or platform call changes no byte of memory but by the environment. It
rests on the spec's own decision D31 and on the model's choices of log entry 10. -/
def Obligations.OnlyStoresChangeMemory : Prop :=
  ∀ (i : Instr) (s t : State), i.stores = false → i.asksPlatform = false → exec i s = .next t →
    (∀ a, ¬SharedByte s.params a → t.mem.read a = s.mem.read a) ∧
    (s.mem.wf = true → ∀ a, Settled s a (s.mem.read a) (t.mem.read a)) ∧ (s.params.shared = [] → KeepsMem s t)

/-- The environment writes shared bytes only, and changes no register, pc, call stack or status. It rests on the
spec's own decision D31 and on the model's choices of log entry 10. -/
def Obligations.EnvironmentTouchesSharedBytesOnly : Prop :=
  ∀ s : State, s.mem.wf = true →
    (∀ a, Settled s a (s.mem.read a) ((envTurn s).mem.read a)) ∧
    (envTurn s).x = s.x ∧ (envTurn s).pc = s.pc ∧ KeepsRun s (envTurn s) ∧ s.env.Leads (envTurn s).env

/-- A legal instruction of a group not supported raises UnsupportedInstruction(pc) and changes nothing. It rests on
the spec's own decisions D2 and D7. -/
def Obligations.UnsupportedGroupFaults : Prop :=
  ∀ (i : Instr) (s : State), i.wellFormed = true → (∀ n, i ≠ .imm64Hi n) →
    supports s.params.groups i.group = false → FaultsWith i s (.unsupportedInstruction s.pc)

/-- A register number above 10 is illegal in every instruction. It rests on the spec's own decisions D5 and D7 and
on the model's choices of log entry 14. -/
def Obligations.BadRegisterNumberFaults : Prop :=
  ∀ (i : Instr) (s : State), i.wellFormed = false → FaultsWith i s (.illegalInstruction s.pc)

/-- Reading a register that holds no value raises UninitRegister for the first such register in the order of the
rule. It rests on the spec's own decisions D4, D7 and D35. -/
def Obligations.UninitRegisterFaults : Prop :=
  ∀ (i : Instr) (s : State) (before after : List RegNum) (r : RegNum), i.wellFormed = true →
    supports s.params.groups i.group = true → i.reads = before ++ r :: after →
    (∀ q ∈ before, s.reg q ≠ none) → s.reg r = none → FaultsWith i s (.uninitRegister r)

/-- ADD, SUB, MUL and NEG compute modulo 2^32 or 2^64; nothing faults. It rests on the spec's own decision D38. -/
def Obligations.AddSubMulNegWrap : Prop :=
  BinaryGives .add32K .add32X .base32 .add64K .add64X .base64 (fun _ _ => True)
    (fun w a b => BitVec.ofInt w (a.toInt + b.toInt)) ∧
  BinaryGives .sub32K .sub32X .base32 .sub64K .sub64X .base64 (fun _ _ => True)
    (fun w a b => BitVec.ofInt w (a.toInt - b.toInt)) ∧
  BinaryGives .mul32K .mul32X .divmul32 .mul64K .mul64X .divmul64 (fun _ _ => True)
    (fun w a b => BitVec.ofInt w (a.toInt * b.toInt)) ∧
  UnaryGives .neg32 .base32 (fun _ a v => v = (BitVec.ofInt 32 (-(a.setWidth 32).toInt)).setWidth 64) ∧
  UnaryGives .neg64 .base64 (fun _ a v => v = BitVec.ofInt 64 (-a.toInt))

/-- OR, AND and XOR: each bit of the result, in all four forms. It rests on the spec's own decision D38. -/
def Obligations.BitwiseResults : Prop :=
  BinaryGives .or32K .or32X .base32 .or64K .or64X .base64 (fun _ _ => True)
    (fun w a b => BitVec.ofFnLE fun k : Fin w => a[k] || b[k]) ∧
  BinaryGives .and32K .and32X .base32 .and64K .and64X .base64 (fun _ _ => True)
    (fun w a b => BitVec.ofFnLE fun k : Fin w => a[k] && b[k]) ∧
  BinaryGives .xor32K .xor32X .base32 .xor64K .xor64X .base64 (fun _ _ => True)
    (fun w a b => BitVec.ofFnLE fun k : Fin w => a[k] != b[k])

/-- LSH, RSH and ARSH shift by the operand masked with 0x1F at 32 bits and 0x3F at 64 bits. -/
def Obligations.ShiftResults : Prop :=
  BinaryGives .lsh32K .lsh32X .base32 .lsh64K .lsh64X .base64 (fun _ _ => True)
    (fun w a b => BitVec.ofNat w (a.toNat * 2 ^ (b &&& BitVec.ofNat w (if w = 32 then 0x1F else 0x3F)).toNat)) ∧
  BinaryGives .rsh32K .rsh32X .base32 .rsh64K .rsh64X .base64 (fun _ _ => True)
    (fun w a b => BitVec.ofNat w (a.toNat / 2 ^ (b &&& BitVec.ofNat w (if w = 32 then 0x1F else 0x3F)).toNat)) ∧
  BinaryGives .arsh32K .arsh32X .base32 .arsh64K .arsh64X .base64 (fun _ _ => True)
    (fun w a b => BitVec.ofInt w (a.toInt / 2 ^ (b &&& BitVec.ofNat w (if w = 32 then 0x1F else 0x3F)).toNat)) ∧
  (∀ b : BitVec 32, (b &&& 0x1F).toNat < 32) ∧ ∀ b : BitVec 64, (b &&& 0x3F).toNat < 64

/-- DIV and MOD by a divisor that is not zero: the unsigned quotient and remainder. -/
def Obligations.UnsignedDivisionAndModulo : Prop :=
  BinaryGives .div32K .div32X .divmul32 .div64K .div64X .divmul64 (fun _ b => b ≠ 0)
    (fun w a b => BitVec.ofNat w (a.toNat / b.toNat)) ∧
  BinaryGives .mod32K .mod32X .divmul32 .mod64K .mod64X .divmul64 (fun _ b => b ≠ 0)
    (fun w a b => BitVec.ofNat w (a.toNat % b.toNat))

/-- SDIV by a divisor that is not zero: the quotient rounded toward zero, wrapped. It rests on the spec's own
decision D17. -/
def Obligations.SignedDivision : Prop :=
  BinaryGives .sdiv32K .sdiv32X .divmul32 .sdiv64K .sdiv64X .divmul64 (fun _ b => b ≠ 0)
    (fun w a b => BitVec.ofInt w (a.toInt.tdiv b.toInt)) ∧
  BitVec.ofInt 32 ((BitVec.intMin 32).toInt.tdiv (-1 : BitVec 32).toInt) = BitVec.intMin 32 ∧
  BitVec.ofInt 64 ((BitVec.intMin 64).toInt.tdiv (-1 : BitVec 64).toInt) = BitVec.intMin 64

/-- SMOD by a divisor that is not zero: a - n * trunc(a / n), in all four forms. It rests on an inference the spec
marks as its own (R201). -/
def Obligations.SignedModulo : Prop :=
  BinaryGives .smod32K .smod32X .divmul32 .smod64K .smod64X .divmul64 (fun _ b => b ≠ 0)
    (fun w a b => BitVec.ofInt w (a.toInt - b.toInt * a.toInt.tdiv b.toInt)) ∧
  ∀ w, w = 32 ∨ w = 64 → ∀ a b : BitVec w, b ≠ 0 →
    (BitVec.ofInt w (a.toInt - b.toInt * a.toInt.tdiv b.toInt)).toInt = a.toInt - b.toInt * a.toInt.tdiv b.toInt ∧
    (a.toInt - b.toInt * a.toInt.tdiv b.toInt).natAbs < b.toInt.natAbs ∧
    (0 ≤ a.toInt → 0 ≤ a.toInt - b.toInt * a.toInt.tdiv b.toInt) ∧
    (a.toInt ≤ 0 → a.toInt - b.toInt * a.toInt.tdiv b.toInt ≤ 0)

/-- DIV and SDIV by zero set the destination register to zero. -/
def Obligations.DivisionByZeroGivesZero : Prop :=
  BinaryGives .div32K .div32X .divmul32 .div64K .div64X .divmul64 (fun _ b => b = 0)
    (fun _ _ _ => 0) ∧
  BinaryGives .sdiv32K .sdiv32X .divmul32 .sdiv64K .sdiv64X .divmul64 (fun _ b => b = 0)
    (fun _ _ _ => 0)

/-- MOD and SMOD by zero keep the destination (ALU64) or its low half with bits 63:32 zeroed (ALU). -/
def Obligations.ModuloByZeroKeepsTheDividend : Prop :=
  BinaryGives .mod32K .mod32X .divmul32 .mod64K .mod64X .divmul64 (fun _ b => b = 0)
    (fun _ a _ => a) ∧
  BinaryGives .smod32K .smod32X .divmul32 .smod64K .smod64X .divmul64 (fun _ b => b = 0)
    (fun _ a _ => a)

/-- Class ALU: bits 63:32 of the result are zero, and bits 63:32 of the operands never affect it. -/
def Obligations.Alu32ZeroesAndIgnoresUpperBits : Prop :=
  ∀ (i : Instr) (s s' t t' : State) (dst : RegNum), i.isAlu32 = true → i.writes = [dst] → s.status = .running →
    s' = { s with x := s'.x } →
    (∀ r, (s'.reg r).map (fun v => v.setWidth 32) = (s.reg r).map (fun v : Word => v.setWidth 32)) →
    exec i s = .next t → exec i s' = .next t' →
    t'.status = t.status ∧
      (t.status = .running → ∃ v, t.reg dst = some v ∧ t'.reg dst = some v ∧ v.toNat < 2 ^ 32)

/-- MOV writes the source operand, extended as the form says, and does not read the destination. -/
def Obligations.MoveResults : Prop :=
  (∀ (s : State) (dst : RegNum) (imm : Imm), isReg dst = true → Computes (.mov32K dst imm) s dst (imm.setWidth 64)) ∧
  (∀ (s : State) (dst : RegNum) (imm : Imm), supports s.params.groups .base64 = true → isReg dst = true →
    Computes (.mov64K dst imm) s dst (imm.signExtend 64)) ∧
  MoveGives .mov32X .base32 (fun b => (b.setWidth 32).setWidth 64) ∧
  MoveGives .mov64X .base64 (fun b => b)

/-- MOVSX sign-extends the low 8, 16 or 32 bits of a register; the forms the rule leaves undefined are illegal. -/
def Obligations.MovsxSignExtends : Prop :=
  MoveGives .movsx32_8 .base32 (fun b => ((b.setWidth 8).signExtend 32).setWidth 64) ∧
  MoveGives .movsx32_16 .base32 (fun b => ((b.setWidth 16).signExtend 32).setWidth 64) ∧
  MoveGives .movsx64_8 .base64 (fun b => (b.setWidth 8).signExtend 64) ∧
  MoveGives .movsx64_16 .base64 (fun b => (b.setWidth 16).signExtend 64) ∧
  MoveGives .movsx64_32 .base64 (fun b => (b.setWidth 32).signExtend 64) ∧
  (∀ dst src : RegNum,
    encodeFields (.mov32X dst src) = (⟨0xbc, dst, src, 0, 0⟩, none) ∧
    encodeFields (.movsx32_8 dst src) = (⟨0xbc, dst, src, 8, 0⟩, none) ∧
    encodeFields (.movsx32_16 dst src) = (⟨0xbc, dst, src, 16, 0⟩, none) ∧
    encodeFields (.mov64X dst src) = (⟨0xbf, dst, src, 0, 0⟩, none) ∧
    encodeFields (.movsx64_8 dst src) = (⟨0xbf, dst, src, 8, 0⟩, none) ∧
    encodeFields (.movsx64_16 dst src) = (⟨0xbf, dst, src, 16, 0⟩, none) ∧
    encodeFields (.movsx64_32 dst src) = (⟨0xbf, dst, src, 32, 0⟩, none)) ∧
  ∀ (f : Fields) (second : Option Fields),
    (f.opcode = 0xbc → f.offset = 32 → decode f second = .error .unknownEncoding) ∧
    (f.opcode = 0xb4 ∨ f.opcode = 0xb7 → f.offset ≠ 0 → decode f second = .error .unknownEncoding)

/-- LE, BE and BSWAP: each byte of the result on both hosts; bits above the width become 0. It rests on the spec's
own decision D18. -/
def Obligations.ByteSwapResults : Prop :=
  UnaryGives .le16 .base32 (fun e a v => v.toNat < 2 ^ 16 ∧
    ∀ k, k < 2 → byteOf v k = byteOf a (if e = .little then k else 1 - k)) ∧
  UnaryGives .le32 .base32 (fun e a v => v.toNat < 2 ^ 32 ∧
    ∀ k, k < 4 → byteOf v k = byteOf a (if e = .little then k else 3 - k)) ∧
  UnaryGives .le64 .base64 (fun e a v => v.toNat < 2 ^ 64 ∧
    ∀ k, k < 8 → byteOf v k = byteOf a (if e = .little then k else 7 - k)) ∧
  UnaryGives .be16 .base32 (fun e a v => v.toNat < 2 ^ 16 ∧
    ∀ k, k < 2 → byteOf v k = byteOf a (if e = .big then k else 1 - k)) ∧
  UnaryGives .be32 .base32 (fun e a v => v.toNat < 2 ^ 32 ∧
    ∀ k, k < 4 → byteOf v k = byteOf a (if e = .big then k else 3 - k)) ∧
  UnaryGives .be64 .base64 (fun e a v => v.toNat < 2 ^ 64 ∧
    ∀ k, k < 8 → byteOf v k = byteOf a (if e = .big then k else 7 - k)) ∧
  UnaryGives .bswap16 .base32 (fun _ a v => v.toNat < 2 ^ 16 ∧
    ∀ k, k < 2 → byteOf v k = byteOf a (1 - k)) ∧
  UnaryGives .bswap32 .base32 (fun _ a v => v.toNat < 2 ^ 32 ∧
    ∀ k, k < 4 → byteOf v k = byteOf a (3 - k)) ∧
  UnaryGives .bswap64 .base64 (fun _ a v => v.toNat < 2 ^ 64 ∧
    ∀ k, k < 8 → byteOf v k = byteOf a (7 - k))

/-- JA and JA32 set pc to pc + 1 + displacement, in the integers, and change nothing else. It rests on the spec's
own decision D8. -/
def Obligations.UnconditionalJumps : Prop :=
  ∀ s : State,
    (∀ off : Offset, exec (.ja off) s = .next { s with pc := s.pc + 1 + off.toInt }) ∧
    (∀ imm : Imm, exec (.ja32 imm) s = .next { s with pc := s.pc + 1 + imm.toInt })

/-- The 22 conditional jumps of class JMP: taken iff the condition of R262 holds; pc changes and nothing else. It
rests on the spec's own decisions D8 and D38. -/
def Obligations.ConditionalJumps64 : Prop :=
  Jumps64If .jeq64K .jeq64X (fun a b => a = b) ∧
  Jumps64If .jgt64K .jgt64X (fun a b => a.toNat > b.toNat) ∧
  Jumps64If .jge64K .jge64X (fun a b => a.toNat ≥ b.toNat) ∧
  Jumps64If .jset64K .jset64X (fun a b => a &&& b ≠ 0) ∧
  Jumps64If .jne64K .jne64X (fun a b => a ≠ b) ∧
  Jumps64If .jsgt64K .jsgt64X (fun a b => a.toInt > b.toInt) ∧
  Jumps64If .jsge64K .jsge64X (fun a b => a.toInt ≥ b.toInt) ∧
  Jumps64If .jlt64K .jlt64X (fun a b => a.toNat < b.toNat) ∧
  Jumps64If .jle64K .jle64X (fun a b => a.toNat ≤ b.toNat) ∧
  Jumps64If .jslt64K .jslt64X (fun a b => a.toInt < b.toInt) ∧
  Jumps64If .jsle64K .jsle64X (fun a b => a.toInt ≤ b.toInt)

/-- The 22 conditional jumps of class JMP32: taken iff the condition of R262 holds; pc changes and nothing else. It
rests on the spec's own decision D8. -/
def Obligations.ConditionalJumps32 : Prop :=
  Jumps32If .jeq32K .jeq32X (fun a b => a = b) ∧
  Jumps32If .jgt32K .jgt32X (fun a b => a.toNat > b.toNat) ∧
  Jumps32If .jge32K .jge32X (fun a b => a.toNat ≥ b.toNat) ∧
  Jumps32If .jset32K .jset32X (fun a b => a &&& b ≠ 0) ∧
  Jumps32If .jne32K .jne32X (fun a b => a ≠ b) ∧
  Jumps32If .jsgt32K .jsgt32X (fun a b => a.toInt > b.toInt) ∧
  Jumps32If .jsge32K .jsge32X (fun a b => a.toInt ≥ b.toInt) ∧
  Jumps32If .jlt32K .jlt32X (fun a b => a.toNat < b.toNat) ∧
  Jumps32If .jle32K .jle32X (fun a b => a.toNat ≤ b.toNat) ∧
  Jumps32If .jslt32K .jslt32X (fun a b => a.toInt < b.toInt) ∧
  Jumps32If .jsle32K .jsle32X (fun a b => a.toInt ≤ b.toInt)

/-- CALL_LOCAL appends pc + 1 to calls and sets pc to pc + 1 + imm; at CALL_DEPTH_MAX it faults. It rests on the
spec's own decisions D7 and D28. -/
def Obligations.CallLocalPushesAndJumps : Prop :=
  ∀ (s : State) (imm : Imm),
    ((∀ d, s.params.callDepthMax = some d → s.calls.length < d) →
      exec (.callLocal imm) s = .next { s with calls := s.calls ++ [s.pc + 1], pc := s.pc + 1 + imm.toInt }) ∧
    (∀ d, s.params.callDepthMax = some d → d ≤ s.calls.length →
      FaultsWith (.callLocal imm) s (.callDepthExceeded s.pc))

/-- EXIT returns to the last entry of calls, or ends the run with the content of r0. It rests on the spec's own
decisions D28 and D29. -/
def Obligations.ExitReturnsOrEndsTheRun : Prop :=
  ∀ s : State,
    (s.calls = [] → exec .exit s = .next { s with status := .exited (s.reg 0) }) ∧
    (∀ (rest : List Int) (t : Int), s.calls = rest ++ [t] → exec .exit s = .next { s with calls := rest, pc := t })

/-- After a program-local call, an EXIT at the same depth comes back to the slot after the call with the old call
stack. It rests on the spec's own decision D28. -/
def Obligations.ReturnComesBackBehindTheCall : Prop :=
  ∀ (s t u : State) (imm : Imm), s.status = .running → exec (.callLocal imm) s = .next t → t.status = .running →
    u.calls = t.calls → exec .exit u = .next { u with calls := s.calls, pc := s.pc + 1 }

/-- CALL_HELPER and CALL_BTF: registers and memory become what the platform answers, pc advances by 1. It rests on
the spec's own decision D27 and on the model's choices of log entry 8. -/
def Obligations.HelperCallsTakeThePlatformsAnswer : Prop :=
  ∀ (s : State) (imm : Imm), s.mem.wf = true →
    AskGives (.callHelper imm) (.helper .staticId imm) s ∧ AskGives (.callBtf imm) (.helper .btfId imm) s

/-- A helper the platform does not have, or that fails, raises PlatformFault. It rests on the spec's own decisions
D7 and D27 and on the model's choices of log entry 8. -/
def Obligations.MissingHelperFaults : Prop :=
  ∀ (s : State) (imm : Imm),
    AskFaults (.callHelper imm) (.helper .staticId imm) s ∧ AskFaults (.callBtf imm) (.helper .btfId imm) s

/-- The seven loads that are one event: the bytes at the effective address, in host byte order, extended. It rests
on the spec's own decisions D13, D15 and D20. -/
def Obligations.LoadResults : Prop :=
  LoadGives .ldxW .base32 4 (fun v => v) ∧
  LoadGives .ldxH .base32 2 (fun v => v) ∧
  LoadGives .ldxB .base32 1 (fun v => v) ∧
  LoadGives .ldxDw .base64 8 (fun v => v) ∧
  LoadGives .ldxsW .base32 4 (fun v => (v.setWidth 32).signExtend 64) ∧
  LoadGives .ldxsH .base32 2 (fun v => (v.setWidth 16).signExtend 64) ∧
  LoadGives .ldxsB .base32 1 (fun v => (v.setWidth 8).signExtend 64)

/-- A load of shared bytes that is not one event: each byte is one that stood there or that the environment stored
there. It rests on the spec's own decisions D13, D15, D20 and D31 and on the model's choices of log entries 10 and
11. -/
def Obligations.TornLoadResults : Prop :=
  LoadTornGives .ldxW .base32 4 (fun v => v) ∧
  LoadTornGives .ldxH .base32 2 (fun v => v) ∧
  LoadTornGives .ldxDw .base64 8 (fun v => v) ∧
  LoadTornGives .ldxsW .base32 4 (fun v => (v.setWidth 32).signExtend 64) ∧
  LoadTornGives .ldxsH .base32 2 (fun v => (v.setWidth 16).signExtend 64)

/-- The four stores of an immediate: the low bytes of the sign-extended imm at the effective address, and no other
byte. It rests on the spec's own decisions D13, D15, D19 and D31 and on the model's choices of log entries 10 and
11. -/
def Obligations.ImmediateStoreResults : Prop :=
  StoreImmGives .stW .base32 4 ∧
  StoreImmGives .stH .base32 2 ∧
  StoreImmGives .stB .base32 1 ∧
  StoreImmGives .stDw .base64 8

/-- The four stores of a register: its low bytes at the effective address, and no other byte. It rests on the spec's
own decisions D13, D15 and D31 and on the model's choices of log entries 10 and 11. -/
def Obligations.RegisterStoreResults : Prop :=
  StoreRegGives .stxW .base32 4 ∧
  StoreRegGives .stxH .base32 2 ∧
  StoreRegGives .stxB .base32 1 ∧
  StoreRegGives .stxDw .base64 8

/-- A load from the address a store has just written gives the stored bytes back, zero-extended. It rests on the
spec's own decisions D13 and D15. -/
def Obligations.StoreThenLoadGivesTheValue : Prop :=
  (∀ (s t u : State) (dst src d : RegNum) (off : Offset) (v : Word), s.mem.wf = true → s.status = .running →
    s.reg src = some v → s.params.shared = [] → t.status = .running → u.status = .running →
    (exec (.stxW dst src off) s = .next t → exec (.ldxW d dst off) t = .next u →
      u.reg d = some ((v.setWidth 32).setWidth 64)) ∧
    (exec (.stxH dst src off) s = .next t → exec (.ldxH d dst off) t = .next u →
      u.reg d = some ((v.setWidth 16).setWidth 64)) ∧
    (exec (.stxB dst src off) s = .next t → exec (.ldxB d dst off) t = .next u →
      u.reg d = some ((v.setWidth 8).setWidth 64)) ∧
    (exec (.stxDw dst src off) s = .next t → exec (.ldxDw d dst off) t = .next u → u.reg d = some v))

/-- A load, store or atomic that is not admitted, crosses 2^64 or is misaligned raises MemoryFault(addr, n, kind)
and changes nothing. It rests on the spec's own decisions D7, D12, D14 and D15. -/
def Obligations.MemoryFaults : Prop :=
  ∀ (s : State) (dst src : RegNum) (off : Offset) (imm : Imm) (base v c : Word),
    (isReg dst = true → s.reg src = some base →
      (¬Performed s.params (base + off.signExtend 64) 4 .load →
        FaultsWith (.ldxW dst src off) s (.memoryFault (base + off.signExtend 64) 4 .load)) ∧
      (¬Performed s.params (base + off.signExtend 64) 2 .load →
        FaultsWith (.ldxH dst src off) s (.memoryFault (base + off.signExtend 64) 2 .load)) ∧
      (¬Performed s.params (base + off.signExtend 64) 1 .load →
        FaultsWith (.ldxB dst src off) s (.memoryFault (base + off.signExtend 64) 1 .load)) ∧
      (supports s.params.groups .base64 = true → ¬Performed s.params (base + off.signExtend 64) 8 .load →
        FaultsWith (.ldxDw dst src off) s (.memoryFault (base + off.signExtend 64) 8 .load)) ∧
      (¬Performed s.params (base + off.signExtend 64) 4 .load →
        FaultsWith (.ldxsW dst src off) s (.memoryFault (base + off.signExtend 64) 4 .load)) ∧
      (¬Performed s.params (base + off.signExtend 64) 2 .load →
        FaultsWith (.ldxsH dst src off) s (.memoryFault (base + off.signExtend 64) 2 .load)) ∧
      (¬Performed s.params (base + off.signExtend 64) 1 .load →
        FaultsWith (.ldxsB dst src off) s (.memoryFault (base + off.signExtend 64) 1 .load))) ∧
    (s.reg dst = some base →
      (¬Performed s.params (base + off.signExtend 64) 4 .store →
        FaultsWith (.stW dst off imm) s (.memoryFault (base + off.signExtend 64) 4 .store)) ∧
      (¬Performed s.params (base + off.signExtend 64) 2 .store →
        FaultsWith (.stH dst off imm) s (.memoryFault (base + off.signExtend 64) 2 .store)) ∧
      (¬Performed s.params (base + off.signExtend 64) 1 .store →
        FaultsWith (.stB dst off imm) s (.memoryFault (base + off.signExtend 64) 1 .store)) ∧
      (supports s.params.groups .base64 = true → ¬Performed s.params (base + off.signExtend 64) 8 .store →
        FaultsWith (.stDw dst off imm) s (.memoryFault (base + off.signExtend 64) 8 .store))) ∧
    (s.reg dst = some base → s.reg src = some v →
      (¬Performed s.params (base + off.signExtend 64) 4 .store →
        FaultsWith (.stxW dst src off) s (.memoryFault (base + off.signExtend 64) 4 .store)) ∧
      (¬Performed s.params (base + off.signExtend 64) 2 .store →
        FaultsWith (.stxH dst src off) s (.memoryFault (base + off.signExtend 64) 2 .store)) ∧
      (¬Performed s.params (base + off.signExtend 64) 1 .store →
        FaultsWith (.stxB dst src off) s (.memoryFault (base + off.signExtend 64) 1 .store)) ∧
      (supports s.params.groups .base64 = true → ¬Performed s.params (base + off.signExtend 64) 8 .store →
        FaultsWith (.stxDw dst src off) s (.memoryFault (base + off.signExtend 64) 8 .store))) ∧
    (s.reg dst = some base → s.reg src = some v →
      (supports s.params.groups .atomic32 = true → ¬Performed s.params (base + off.signExtend 64) 4 .atomic →
        (∀ mk ∈ [Instr.atomicAdd32, Instr.atomicFetchAdd32, Instr.atomicOr32,
          Instr.atomicFetchOr32, Instr.atomicAnd32, Instr.atomicFetchAnd32,
          Instr.atomicXor32, Instr.atomicFetchXor32, Instr.atomicXchg32],
          FaultsWith (mk dst src off) s (.memoryFault (base + off.signExtend 64) 4 .atomic)) ∧
        (s.reg 0 = some c →
          FaultsWith (.atomicCmpxchg32 dst src off) s (.memoryFault (base + off.signExtend 64) 4 .atomic))) ∧
      (supports s.params.groups .atomic64 = true → ¬Performed s.params (base + off.signExtend 64) 8 .atomic →
        (∀ mk ∈ [Instr.atomicAdd64, Instr.atomicFetchAdd64, Instr.atomicOr64,
          Instr.atomicFetchOr64, Instr.atomicAnd64, Instr.atomicFetchAnd64,
          Instr.atomicXor64, Instr.atomicFetchXor64, Instr.atomicXchg64],
          FaultsWith (mk dst src off) s (.memoryFault (base + off.signExtend 64) 8 .atomic)) ∧
        (s.reg 0 = some c →
          FaultsWith (.atomicCmpxchg64 dst src off) s (.memoryFault (base + off.signExtend 64) 8 .atomic))))

/-- The eight atomic operations without FETCH: memory becomes old op src as one event, no register changes. It rests
on the spec's own decisions D13, D15 and D21. -/
def Obligations.AtomicResults : Prop :=
  AtomicGives .atomicAdd32 .atomic32 4 (fun old v => (old.setWidth 32 + v.setWidth 32).setWidth 64) ∧
  AtomicGives .atomicOr32 .atomic32 4 (fun old v => (old.setWidth 32 ||| v.setWidth 32).setWidth 64) ∧
  AtomicGives .atomicAnd32 .atomic32 4 (fun old v => (old.setWidth 32 &&& v.setWidth 32).setWidth 64) ∧
  AtomicGives .atomicXor32 .atomic32 4 (fun old v => (old.setWidth 32 ^^^ v.setWidth 32).setWidth 64) ∧
  AtomicGives .atomicAdd64 .atomic64 8 (fun old v => old + v) ∧
  AtomicGives .atomicOr64 .atomic64 8 (fun old v => old ||| v) ∧
  AtomicGives .atomicAnd64 .atomic64 8 (fun old v => old &&& v) ∧
  AtomicGives .atomicXor64 .atomic64 8 (fun old v => old ^^^ v)

/-- The FETCH forms and XCHG: the same update, and the source register receives the old value, zero-extended. It
rests on the spec's own decisions D13, D15 and D21. -/
def Obligations.AtomicFetchResults : Prop :=
  AtomicFetchGives .atomicFetchAdd32 .atomic32 4 (fun old v => (old.setWidth 32 + v.setWidth 32).setWidth 64) ∧
  AtomicFetchGives .atomicFetchOr32 .atomic32 4 (fun old v => (old.setWidth 32 ||| v.setWidth 32).setWidth 64) ∧
  AtomicFetchGives .atomicFetchAnd32 .atomic32 4 (fun old v => (old.setWidth 32 &&& v.setWidth 32).setWidth 64) ∧
  AtomicFetchGives .atomicFetchXor32 .atomic32 4 (fun old v => (old.setWidth 32 ^^^ v.setWidth 32).setWidth 64) ∧
  AtomicFetchGives .atomicXchg32 .atomic32 4 (fun _ v => (v.setWidth 32).setWidth 64) ∧
  AtomicFetchGives .atomicFetchAdd64 .atomic64 8 (fun old v => old + v) ∧
  AtomicFetchGives .atomicFetchOr64 .atomic64 8 (fun old v => old ||| v) ∧
  AtomicFetchGives .atomicFetchAnd64 .atomic64 8 (fun old v => old &&& v) ∧
  AtomicFetchGives .atomicFetchXor64 .atomic64 8 (fun old v => old ^^^ v) ∧
  AtomicFetchGives .atomicXchg64 .atomic64 8 (fun _ v => v)

/-- CMPXCHG: stores the source iff memory equals r0 at the width; r0 receives the old value either way. It rests on
the spec's own decisions D13, D15 and D21. -/
def Obligations.CmpxchgResults : Prop :=
  CmpxchgGives .atomicCmpxchg32 .atomic32 4 ∧ CmpxchgGives .atomicCmpxchg64 .atomic64 8

/-- LDDW writes next_imm and imm as the upper and lower half, neither sign-extended, and pc advances by 2. It rests
on the spec's own decision D24. -/
def Obligations.WideImmediateResult : Prop :=
  ∀ (s : State) (dst : RegNum) (imm nextImm : Imm), supports s.params.groups .base64 = true → isReg dst = true →
    ComputesWide (.lddw dst imm nextImm) s dst (BitVec.ofNat 64 (nextImm.toNat * 2 ^ 32 + imm.toNat))

/-- The six 64-bit immediate instructions that ask the platform write what its lookup gives, pc advances by 2. It
rests on the spec's own decision D26. -/
def Obligations.PlatformLookupResults : Prop :=
  ∀ (s : State) (dst : RegNum) (imm nextImm : Imm) (v m : Word), supports s.params.groups .base64 = true →
    isReg dst = true →
    (s.params.mapByFd.lookup imm = some v → ComputesWide (.ldMapFd dst imm) s dst v) ∧
    (s.params.mapByIdx.lookup imm = some v → ComputesWide (.ldMapIdx dst imm) s dst v) ∧
    (s.params.varAddr.lookup imm = some v → ComputesWide (.ldVarAddr dst imm) s dst v) ∧
    (s.params.codeAddr.lookup (s.pc, imm) = some v → ComputesWide (.ldCodeAddr dst imm) s dst v) ∧
    (s.params.mapByFd.lookup imm = some m → s.params.mapVal.lookup m = some v →
      ComputesWide (.ldMapValFd dst imm nextImm) s dst (v + nextImm.signExtend 64)) ∧
    (s.params.mapByIdx.lookup imm = some m → s.params.mapVal.lookup m = some v →
      ComputesWide (.ldMapValIdx dst imm nextImm) s dst (v + nextImm.signExtend 64))

/-- A lookup the platform answers with none raises PlatformFault with the function and its argument. It rests on the
spec's own decisions D7 and D26. -/
def Obligations.MissingLookupFaults : Prop :=
  ∀ (s : State) (dst : RegNum) (imm nextImm : Imm) (m : Word), supports s.params.groups .base64 = true →
    isReg dst = true →
    (s.params.mapByFd.lookup imm = none →
      FaultsWith (.ldMapFd dst imm) s (.platformFault (.mapByFd imm)) ∧
      FaultsWith (.ldMapValFd dst imm nextImm) s (.platformFault (.mapByFd imm))) ∧
    (s.params.mapByIdx.lookup imm = none →
      FaultsWith (.ldMapIdx dst imm) s (.platformFault (.mapByIdx imm)) ∧
      FaultsWith (.ldMapValIdx dst imm nextImm) s (.platformFault (.mapByIdx imm))) ∧
    (s.params.varAddr.lookup imm = none → FaultsWith (.ldVarAddr dst imm) s (.platformFault (.varAddr imm))) ∧
    (s.params.codeAddr.lookup (s.pc, imm) = none →
      FaultsWith (.ldCodeAddr dst imm) s (.platformFault (.codeAddr s.pc imm))) ∧
    (s.params.mapVal.lookup m = none →
      (s.params.mapByFd.lookup imm = some m →
        FaultsWith (.ldMapValFd dst imm nextImm) s (.platformFault (.mapVal m))) ∧
      (s.params.mapByIdx.lookup imm = some m →
        FaultsWith (.ldMapValIdx dst imm nextImm) s (.platformFault (.mapVal m))))

/-- Under the spec's default GROUPS the six packet instructions raise UnsupportedInstruction, whatever the registers
hold. It rests on the spec's own decisions D2, D7 and D33. -/
def Obligations.PacketInstructionsUnsupportedByDefault : Prop :=
  (.packet ∉ defaultGroups) ∧
  ∀ (s : State) (src : RegNum) (imm : Imm), .packet ∉ s.params.groups →
    (∀ mk ∈ [Instr.ldAbsW, Instr.ldAbsH, Instr.ldAbsB], FaultsWith (mk imm) s (.unsupportedInstruction s.pc)) ∧
    (isReg src = true → ∀ mk ∈ [Instr.ldIndW, Instr.ldIndH, Instr.ldIndB],
      FaultsWith (mk src imm) s (.unsupportedInstruction s.pc))

/-- On a platform with packet in GROUPS the six packet instructions take the effect it supplies, then pc + 1; where
it supplies none, PlatformFault. It rests on the spec's own decision D33 and on the model's choices of log entries 8
and 9. -/
def Obligations.PacketInstructionsTakeThePlatformsAnswer : Prop :=
  ∀ (s : State) (src : RegNum) (imm : Imm), .packet ∈ s.params.groups →
    ((s.mem.wf = true → AskGives (.ldAbsW imm) (.packet .abs .w 0 imm) s) ∧
      AskFaults (.ldAbsW imm) (.packet .abs .w 0 imm) s) ∧
    ((s.mem.wf = true → AskGives (.ldAbsH imm) (.packet .abs .h 0 imm) s) ∧
      AskFaults (.ldAbsH imm) (.packet .abs .h 0 imm) s) ∧
    ((s.mem.wf = true → AskGives (.ldAbsB imm) (.packet .abs .b 0 imm) s) ∧
      AskFaults (.ldAbsB imm) (.packet .abs .b 0 imm) s) ∧
    (isReg src = true →
      ((s.mem.wf = true → AskGives (.ldIndW src imm) (.packet .ind .w src imm) s) ∧
        AskFaults (.ldIndW src imm) (.packet .ind .w src imm) s) ∧
      ((s.mem.wf = true → AskGives (.ldIndH src imm) (.packet .ind .h src imm) s) ∧
        AskFaults (.ldIndH src imm) (.packet .ind .h src imm) s) ∧
      ((s.mem.wf = true → AskGives (.ldIndB src imm) (.packet .ind .b src imm) s) ∧
        AskFaults (.ldIndB src imm) (.packet .ind .b src imm) s))

/-- A fetch of the second slot of a wide instruction faults with IllegalInstruction(pc), however pc came there. It
rests on the spec's own decisions D7, D9 and D31 and on the model's choices of log entries 10 and 13. -/
def Obligations.SecondSlotFetchedIsIllegal : Prop :=
  (∀ (s : State) (nextImm : Imm), FaultsWith (.imm64Hi nextImm) s (.illegalInstruction s.pc)) ∧
  ∀ (s : State) (i : Instr) (first second : Slot) (rest : List Slot), s.status = .running → 0 ≤ s.pc →
    i.wellFormed = true → encodeSlots s.params.endian i = [first, second] →
    s.params.program.drop s.pc.toNat = second :: rest →
    step s = .next { envTurn s with status := .faulted (.illegalInstruction s.pc) }

/-- A helper call, or a supplied packet instruction, does what its relation gives for the registers and memory now;
PlatformFault where it gives nothing. It rests on the spec's own decisions D7, D27 and D33 and on the model's
choices of log entries 8 and 9. -/
def Obligations.PlatformCallTakesAnAnswerOfItsRelation : Prop :=
  ∀ (s : State) (src : RegNum) (imm : Imm), s.mem.wf = true →
    TakesAnAnswer (.callHelper imm) (.helper .staticId imm) s ∧
    TakesAnAnswer (.callBtf imm) (.helper .btfId imm) s ∧
    (.packet ∈ s.params.groups →
      TakesAnAnswer (.ldAbsW imm) (.packet .abs .w 0 imm) s ∧
      TakesAnAnswer (.ldAbsH imm) (.packet .abs .h 0 imm) s ∧
      TakesAnAnswer (.ldAbsB imm) (.packet .abs .b 0 imm) s ∧
      (isReg src = true →
        TakesAnAnswer (.ldIndW src imm) (.packet .ind .w src imm) s ∧
        TakesAnAnswer (.ldIndH src imm) (.packet .ind .h src imm) s ∧
        TakesAnAnswer (.ldIndB src imm) (.packet .ind .b src imm) s))
end

