-- ==== Sys2Proof/Laws/State.lean ====
section
/-! SUPPORT. What each update of the state leaves in each field, and reading a register after an update. -/

namespace Sys2Proof.Machine

@[simp] theorem State.putReg_x (s : State) (r : RegNum) (v : Option Word) : (s.putReg r v).x = s.x.setIfInBounds r.toNat v := rfl
@[simp] theorem State.putReg_pc (s : State) (r : RegNum) (v : Option Word) : (s.putReg r v).pc = s.pc := rfl
@[simp] theorem State.putReg_calls (s : State) (r : RegNum) (v : Option Word) : (s.putReg r v).calls = s.calls := rfl
@[simp] theorem State.putReg_mem (s : State) (r : RegNum) (v : Option Word) : (s.putReg r v).mem = s.mem := rfl
@[simp] theorem State.putReg_status (s : State) (r : RegNum) (v : Option Word) : (s.putReg r v).status = s.status := rfl
@[simp] theorem State.putReg_params (s : State) (r : RegNum) (v : Option Word) : (s.putReg r v).params = s.params := rfl
@[simp] theorem State.putReg_env (s : State) (r : RegNum) (v : Option Word) : (s.putReg r v).env = s.env := rfl
@[simp] theorem State.putReg_draws (s : State) (r : RegNum) (v : Option Word) : (s.putReg r v).draws = s.draws := rfl

@[simp] theorem State.setReg_x (s : State) (r : RegNum) (v : Word) : (s.setReg r v).x = s.x.setIfInBounds r.toNat (some v) := rfl
@[simp] theorem State.setReg_pc (s : State) (r : RegNum) (v : Word) : (s.setReg r v).pc = s.pc := rfl
@[simp] theorem State.setReg_calls (s : State) (r : RegNum) (v : Word) : (s.setReg r v).calls = s.calls := rfl
@[simp] theorem State.setReg_mem (s : State) (r : RegNum) (v : Word) : (s.setReg r v).mem = s.mem := rfl
@[simp] theorem State.setReg_status (s : State) (r : RegNum) (v : Word) : (s.setReg r v).status = s.status := rfl
@[simp] theorem State.setReg_params (s : State) (r : RegNum) (v : Word) : (s.setReg r v).params = s.params := rfl
@[simp] theorem State.setReg_env (s : State) (r : RegNum) (v : Word) : (s.setReg r v).env = s.env := rfl
@[simp] theorem State.setReg_draws (s : State) (r : RegNum) (v : Word) : (s.setReg r v).draws = s.draws := rfl

@[simp] theorem State.advance_x (s : State) (n : Int) : (s.advance n).x = s.x := rfl
@[simp] theorem State.advance_pc (s : State) (n : Int) : (s.advance n).pc = s.pc + n := rfl
@[simp] theorem State.advance_calls (s : State) (n : Int) : (s.advance n).calls = s.calls := rfl
@[simp] theorem State.advance_mem (s : State) (n : Int) : (s.advance n).mem = s.mem := rfl
@[simp] theorem State.advance_status (s : State) (n : Int) : (s.advance n).status = s.status := rfl
@[simp] theorem State.advance_params (s : State) (n : Int) : (s.advance n).params = s.params := rfl
@[simp] theorem State.advance_env (s : State) (n : Int) : (s.advance n).env = s.env := rfl
@[simp] theorem State.advance_draws (s : State) (n : Int) : (s.advance n).draws = s.draws := rfl

@[simp] theorem State.jump_x (s : State) (t : Int) : (s.jump t).x = s.x := rfl
@[simp] theorem State.jump_pc (s : State) (t : Int) : (s.jump t).pc = t := rfl
@[simp] theorem State.jump_calls (s : State) (t : Int) : (s.jump t).calls = s.calls := rfl
@[simp] theorem State.jump_mem (s : State) (t : Int) : (s.jump t).mem = s.mem := rfl
@[simp] theorem State.jump_status (s : State) (t : Int) : (s.jump t).status = s.status := rfl
@[simp] theorem State.jump_params (s : State) (t : Int) : (s.jump t).params = s.params := rfl
@[simp] theorem State.jump_env (s : State) (t : Int) : (s.jump t).env = s.env := rfl
@[simp] theorem State.jump_draws (s : State) (t : Int) : (s.jump t).draws = s.draws := rfl

@[simp] theorem storeAt_x (a : Word) (n : Nat) (v : Word) (s : State) : (storeAt a n v s).x = s.x := rfl
@[simp] theorem storeAt_pc (a : Word) (n : Nat) (v : Word) (s : State) : (storeAt a n v s).pc = s.pc := rfl
@[simp] theorem storeAt_calls (a : Word) (n : Nat) (v : Word) (s : State) : (storeAt a n v s).calls = s.calls := rfl
@[simp] theorem storeAt_status (a : Word) (n : Nat) (v : Word) (s : State) : (storeAt a n v s).status = s.status := rfl
@[simp] theorem storeAt_params (a : Word) (n : Nat) (v : Word) (s : State) : (storeAt a n v s).params = s.params := rfl
@[simp] theorem storeAt_env (a : Word) (n : Nat) (v : Word) (s : State) : (storeAt a n v s).env = s.env := rfl
@[simp] theorem storeAt_draws (a : Word) (n : Nat) (v : Word) (s : State) : (storeAt a n v s).draws = s.draws := rfl
@[simp] theorem storeAt_mem (a : Word) (n : Nat) (v : Word) (s : State) :
    (storeAt a n v s).mem = writeBytes s.mem a.toNat (bytesOf s.params.endian n v) := rfl

/-- Reading a register looks at the registers only. -/
theorem State.reg_congr {s t : State} (h : t.x = s.x) (r : RegNum) : t.reg r = s.reg r := by
  simp only [State.reg, h]

/-- A register after a write: the value where it is the register written, the old content elsewhere. -/
theorem State.reg_putReg (s : State) (r : RegNum) (v : Option Word) (q : RegNum) :
    (s.putReg r v).reg q = if q = r ∧ isReg r = true then v else s.reg q := by
  have hq := q.isLt
  simp only [State.reg, State.putReg, isReg, decide_eq_true_eq]
  by_cases h : q = r
  · subst h
    by_cases hb : q.toNat ≤ 10
    · rw [Vector.getElem?_setIfInBounds_self]; simp [hb, show q.toNat < 11 by omega]
    · simp [hb, show ¬ q.toNat < 11 by omega]
  · have : r.toNat ≠ q.toNat := fun e => h (BitVec.eq_of_toNat_eq e.symm)
    rw [Vector.getElem?_setIfInBounds_ne this]; simp [h]

theorem State.reg_setReg (s : State) (r : RegNum) (v : Word) (q : RegNum) :
    (s.setReg r v).reg q = if q = r ∧ isReg r = true then some v else s.reg q := s.reg_putReg r (some v) q

@[simp] theorem State.reg_setReg_self (s : State) {r : RegNum} (v : Word) (h : isReg r = true) :
    (s.setReg r v).reg r = some v := by simp [State.reg_setReg, h]

theorem State.reg_setReg_other (s : State) {r q : RegNum} (v : Word) (h : q ≠ r) :
    (s.setReg r v).reg q = s.reg q := by simp [State.reg_setReg, h]

@[simp] theorem State.reg_advance (s : State) (n : Int) (q : RegNum) : (s.advance n).reg q = s.reg q := rfl

@[simp] theorem State.reg_jump (s : State) (t : Int) (q : RegNum) : (s.jump t).reg q = s.reg q := rfl

@[simp] theorem reg_storeAt (a : Word) (n : Nat) (v : Word) (s : State) (q : RegNum) :
    (storeAt a n v s).reg q = s.reg q := rfl

/-- A number that is no register holds nothing. -/
theorem State.reg_eq_none (s : State) {r : RegNum} (h : isReg r = false) : s.reg r = none := by
  simp only [isReg, decide_eq_false_iff_not] at h
  simp only [State.reg]
  rw [Vector.getElem?_eq_none (by omega)]; rfl

/-- A register that holds a value is one of the eleven. -/
theorem State.isReg_of_reg {s : State} {r : RegNum} {v : Word} (h : s.reg r = some v) : isReg r = true := by
  by_contra hr
  rw [s.reg_eq_none (by simpa using hr)] at h
  cases h

end Sys2Proof.Machine
end

