-- ==== Sys2Proof/Laws/Memory.lean ====
section
/-! SUPPORT. Memory: reading after writing, and every operation keeps the canonical form. Values and the bytes they are
made of. -/

namespace Sys2Proof.Machine

/-! ## One byte -/

@[simp] theorem Memory.read_nil (a : Nat) : Memory.read [] a = blankByte := rfl

theorem Memory.read_cons (c : Nat) (d : Byte) (m : Memory) (a : Nat) :
    Memory.read ((c, d) :: m) a = if a = c then d else Memory.read m a := by
  simp only [Memory.read, List.lookup_cons]
  by_cases h : a = c
  · simp [h]
  · simp [h, beq_eq_false_iff_ne.mpr h]

/-- A byte below the lowest listed address is blank. -/
theorem Memory.read_below {m : Memory} {lo a : Nat} (hm : Memory.wfFrom lo m = true) (ha : a < lo) :
    Memory.read m a = blankByte := by
  induction m generalizing lo with
  | nil => rfl
  | cons p m ih =>
    obtain ⟨c, d⟩ := p
    simp only [Memory.wfFrom, Bool.and_eq_true, decide_eq_true_eq] at hm
    rw [Memory.read_cons, if_neg (by omega)]
    exact ih hm.2 (by omega)

/-- Writing a byte leaves every other byte. -/
theorem Memory.read_write_other (m : Memory) {a a' : Nat} (b : Byte) (h : a' ≠ a) :
    (m.write a b).read a' = m.read a' := by
  induction m with
  | nil => simp only [Memory.write]; split <;> simp [Memory.read_cons, h]
  | cons p m ih =>
    obtain ⟨c, d⟩ := p
    simp only [Memory.write]
    split
    · split <;> simp [Memory.read_cons, h]
    · split
      · subst_vars; split <;> simp [Memory.read_cons, h]
      · simp [Memory.read_cons, ih]

/-- Reading the byte that was written. -/
theorem Memory.read_write_from {m : Memory} {lo : Nat} (hm : Memory.wfFrom lo m = true) (a : Nat) (b : Byte) :
    (m.write a b).read a = b := by
  induction m generalizing lo with
  | nil => simp only [Memory.write]; split <;> simp_all [Memory.read_cons]
  | cons p m ih =>
    obtain ⟨c, d⟩ := p
    simp only [Memory.wfFrom, Bool.and_eq_true, decide_eq_true_eq] at hm
    simp only [Memory.write]
    split
    · rename_i hac
      split
      · rw [Memory.read_cons, if_neg (by omega), Memory.read_below hm.2 (by omega)]; simp_all
      · simp [Memory.read_cons]
    · split
      · subst_vars
        split
        · rw [Memory.read_below hm.2 (by omega)]; simp_all
        · simp [Memory.read_cons]
      · rename_i hne
        rw [Memory.read_cons, if_neg hne]
        exact ih hm.2

theorem Memory.read_write_self {m : Memory} (hm : m.wf = true) (a : Nat) (b : Byte) : (m.write a b).read a = b :=
  Memory.read_write_from hm a b

/-- A byte past the address space is blank. -/
theorem Memory.read_above {m : Memory} {lo a : Nat} (hm : Memory.wfFrom lo m = true) (ha : 2 ^ 64 ≤ a) :
    Memory.read m a = blankByte := by
  induction m generalizing lo with
  | nil => rfl
  | cons p m ih =>
    obtain ⟨c, d⟩ := p
    simp only [Memory.wfFrom, Bool.and_eq_true, decide_eq_true_eq] at hm
    rw [Memory.read_cons, if_neg (by omega)]
    exact ih hm.2

/-- Memories of the canonical form that read alike are equal. -/
theorem Memory.ext_from {m m' : Memory} {lo : Nat} (hm : Memory.wfFrom lo m = true) (hm' : Memory.wfFrom lo m' = true)
    (h : ∀ a, m.read a = m'.read a) : m = m' := by
  induction m generalizing lo m' with
  | nil =>
    cases m' with
    | nil => rfl
    | cons p m' =>
      obtain ⟨c, d⟩ := p
      simp only [Memory.wfFrom, Bool.and_eq_true, bne_iff_ne, ne_eq] at hm'
      exact absurd (by simpa [Memory.read_cons] using (h c).symm) hm'.1.2
  | cons p m ih =>
    obtain ⟨c, d⟩ := p
    simp only [Memory.wfFrom, Bool.and_eq_true, decide_eq_true_eq, bne_iff_ne, ne_eq] at hm
    cases m' with
    | nil => exact absurd (by simpa [Memory.read_cons] using h c) hm.1.2
    | cons p' m' =>
      obtain ⟨c', d'⟩ := p'
      simp only [Memory.wfFrom, Bool.and_eq_true, decide_eq_true_eq, bne_iff_ne, ne_eq] at hm'
      have hc : c = c' := by
        rcases Nat.lt_trichotomy c c' with hlt | heq | hlt
        · have := h c
          rw [Memory.read_cons, if_pos rfl, Memory.read_cons, if_neg (by omega),
            Memory.read_below hm'.2 (by omega)] at this
          exact absurd this hm.1.2
        · exact heq
        · have := h c'
          rw [Memory.read_cons, if_neg (by omega), Memory.read_below hm.2 (by omega), Memory.read_cons,
            if_pos rfl] at this
          exact absurd this.symm hm'.1.2
      subst hc
      have hd : d = d' := by simpa [Memory.read_cons] using h c
      subst hd
      congr 1
      refine ih hm.2 hm'.2 fun a => ?_
      by_cases e : a = c
      · rw [Memory.read_below hm.2 (by omega), Memory.read_below hm'.2 (by omega)]
      · simpa [Memory.read_cons, e] using h a

theorem Memory.ext {m m' : Memory} (hm : m.wf = true) (hm' : m'.wf = true)
    (h : ∀ a, a < 2 ^ 64 → m.read a = m'.read a) : m = m' :=
  Memory.ext_from hm hm' fun a => by
    by_cases ha : a < 2 ^ 64
    · exact h a ha
    · rw [Memory.read_above hm (by omega), Memory.read_above hm' (by omega)]

/-- There are finitely many addresses. -/
theorem exists_addresses : ∃ addrs : List Word, ∀ c, c ∈ addrs := by
  have : Finite Word := Finite.of_injective BitVec.toFin fun _ _ => BitVec.eq_of_toFin_eq
  obtain ⟨l, hl⟩ := Set.finite_univ (α := Word) |>.exists_finset
  exact ⟨l.toList, fun c => Finset.mem_toList.mpr ((hl c).mpr trivial)⟩

theorem Memory.wfFrom_mono {m : Memory} {lo lo' : Nat} (h : lo' ≤ lo) (hm : Memory.wfFrom lo m = true) :
    Memory.wfFrom lo' m = true := by
  cases m with
  | nil => rfl
  | cons p m =>
    obtain ⟨c, d⟩ := p
    simp only [Memory.wfFrom, Bool.and_eq_true, decide_eq_true_eq] at hm ⊢
    exact ⟨⟨⟨by omega, hm.1.1.2⟩, hm.1.2⟩, hm.2⟩

theorem Memory.wfFrom_write {m : Memory} {lo a : Nat} (b : Byte) (hm : Memory.wfFrom lo m = true) (hlo : lo ≤ a)
    (ha : a < 2 ^ 64) : Memory.wfFrom lo (m.write a b) = true := by
  induction m generalizing lo with
  | nil =>
    simp only [Memory.write]
    split
    · rfl
    · simp only [Memory.wfFrom, Bool.and_eq_true, decide_eq_true_eq, Bool.and_true, bne_iff_ne]
      exact ⟨⟨hlo, ha⟩, by assumption⟩
  | cons p m ih =>
    obtain ⟨c, d⟩ := p
    have hm' := hm
    simp only [Memory.wfFrom, Bool.and_eq_true, decide_eq_true_eq, bne_iff_ne] at hm'
    obtain ⟨⟨⟨h1, h2⟩, h3⟩, h4⟩ := hm'
    simp only [Memory.write]
    split
    · split
      · exact hm
      · simp only [Memory.wfFrom, Bool.and_eq_true, decide_eq_true_eq, bne_iff_ne]
        exact ⟨⟨⟨hlo, ha⟩, by assumption⟩, ⟨⟨by omega, h2⟩, h3⟩, h4⟩
    · split
      · subst_vars
        split
        · exact Memory.wfFrom_mono (by omega) h4
        · simp only [Memory.wfFrom, Bool.and_eq_true, decide_eq_true_eq, bne_iff_ne]
          exact ⟨⟨⟨hlo, ha⟩, by assumption⟩, h4⟩
      · simp only [Memory.wfFrom, Bool.and_eq_true, decide_eq_true_eq, bne_iff_ne]
        exact ⟨⟨⟨h1, h2⟩, h3⟩, ih h4 (by omega)⟩

/-- A write of a byte keeps the canonical form. -/
theorem Memory.wf_write {m : Memory} {a : Nat} (b : Byte) (hm : m.wf = true) (ha : a < 2 ^ 64) :
    (m.write a b).wf = true := Memory.wfFrom_write b hm (Nat.zero_le a) ha

/-! ## Several bytes -/

@[simp] theorem readBytes_length (m : Memory) (a n : Nat) : (readBytes m a n).length = n := by simp [readBytes]

@[simp] theorem readBytes_getElem (m : Memory) (a n k : Nat) (h : k < (readBytes m a n).length) :
    (readBytes m a n)[k] = m.read (a + k) := by simp [readBytes]

/-- Writing bytes leaves every byte outside them. -/
theorem read_writeBytes_outside (bs : List Byte) (m : Memory) (a : Nat) {c : Nat}
    (h : c < a ∨ a + bs.length ≤ c) : (writeBytes m a bs).read c = m.read c := by
  induction bs generalizing m a with
  | nil => rfl
  | cons b bs ih =>
    simp only [List.length_cons] at h
    rw [writeBytes, ih _ _ (by omega), Memory.read_write_other m b (by omega)]

/-- Writing bytes at 64-bit addresses keeps the canonical form. -/
theorem wf_writeBytes (bs : List Byte) {m : Memory} {a : Nat} (hm : m.wf = true) (ha : a + bs.length ≤ 2 ^ 64) :
    (writeBytes m a bs).wf = true := by
  induction bs generalizing m a with
  | nil => exact hm
  | cons b bs ih =>
    simp only [List.length_cons] at ha
    exact ih (Memory.wf_write b hm (by omega)) (by omega)

/-- Reading the bytes that were written. -/
theorem read_writeBytes (bs : List Byte) {m : Memory} {a : Nat} (hm : m.wf = true) (ha : a + bs.length ≤ 2 ^ 64)
    {k : Nat} (hk : k < bs.length) : (writeBytes m a bs).read (a + k) = bs[k] := by
  induction bs generalizing m a k with
  | nil => cases hk
  | cons b bs ih =>
    simp only [List.length_cons] at ha hk
    cases k with
    | zero =>
      rw [writeBytes, read_writeBytes_outside bs _ _ (by omega)]
      exact Memory.read_write_self hm a b
    | succ k =>
      rw [writeBytes, show a + (k + 1) = a + 1 + k by omega, ih (Memory.wf_write b hm (by omega)) (by omega) (by omega)]
      rfl

/-! ## Values -/

theorem leValue_lt (bs : List Byte) : leValue bs < 2 ^ (8 * bs.length) := by
  induction bs with
  | nil => simp [leValue]
  | cons b bs ih =>
    have hb := b.isLt
    simp only [leValue, List.length_cons, Nat.mul_add, Nat.mul_one, Nat.pow_add]
    omega

/-- The byte of the number: byte 0 is the first. -/
theorem leValue_byte (bs : List Byte) {k : Nat} (hk : k < bs.length) :
    leValue bs / 2 ^ (8 * k) % 256 = bs[k].toNat := by
  induction bs generalizing k with
  | nil => cases hk
  | cons b bs ih =>
    have hb := b.isLt
    cases k with
    | zero => simp only [leValue, List.getElem_cons_zero]; omega
    | succ k =>
      simp only [List.length_cons] at hk
      have h : leValue (b :: bs) / 2 ^ (8 * (k + 1)) = leValue bs / 2 ^ (8 * k) := by
        rw [show 2 ^ (8 * (k + 1)) = 256 * 2 ^ (8 * k) by rw [Nat.mul_add, Nat.pow_add]; omega,
          ← Nat.div_div_eq_div_mul]
        congr 1
        simp only [leValue]
        omega
      rw [List.getElem_cons_succ, ← ih (by omega), h]

theorem byteOf_toNat {w : Nat} (v : BitVec w) (k : Nat) : (byteOf v k).toNat = v.toNat / 2 ^ (8 * k) % 256 := by
  simp [byteOf, Nat.shiftRight_eq_div_pow]

/-- The bytes of a value of bytes. -/
theorem byteOf_ofNat_leValue (bs : List Byte) (h8 : bs.length ≤ 8) {k : Nat} (hk : k < bs.length) :
    byteOf (BitVec.ofNat 64 (leValue bs)) k = bs[k] := by
  apply BitVec.eq_of_toNat_eq
  have h1 := leValue_lt bs
  have h2 : 2 ^ (8 * bs.length) ≤ 2 ^ 64 := Nat.pow_le_pow_right (by decide) (by omega)
  rw [byteOf_toNat, BitVec.toNat_ofNat, Nat.mod_eq_of_lt (show leValue bs < 2 ^ 64 by omega), leValue_byte bs hk]

theorem valueOf_lt (e : Endian) (bs : List Byte) (h8 : bs.length ≤ 8) :
    (valueOf e bs).toNat < 2 ^ (8 * bs.length) := by
  have h2 : 2 ^ (8 * bs.length) ≤ 2 ^ 64 := Nat.pow_le_pow_right (by decide) (by omega)
  cases e
  · have h1 := leValue_lt bs
    simp only [valueOf, BitVec.toNat_ofNat]
    rw [Nat.mod_eq_of_lt (by omega)]; exact h1
  · have h1 := leValue_lt bs.reverse
    rw [List.length_reverse] at h1
    simp only [valueOf, BitVec.toNat_ofNat]
    rw [Nat.mod_eq_of_lt (by omega)]; exact h1

@[simp] theorem bytesOf_length (e : Endian) (n : Nat) (v : Word) : (bytesOf e n v).length = n := by
  cases e <;> simp [bytesOf]

/-- The low bytes of the value of bytes are the bytes. -/
theorem bytesOf_valueOf (e : Endian) (bs : List Byte) (h8 : bs.length ≤ 8) :
    bytesOf e bs.length (valueOf e bs) = bs := by
  apply List.ext_getElem (by simp)
  intro k hk hk'
  cases e
  · simpa [bytesOf, valueOf, byteOf] using byteOf_ofNat_leValue bs h8 hk'
  · have h := byteOf_ofNat_leValue bs.reverse (by simpa using h8) (k := bs.length - 1 - k) (by simp; omega)
    simp only [byteOf, List.getElem_reverse] at h
    simp only [bytesOf, valueOf, List.getElem_map, List.getElem_range, h]
    congr 1
    omega

end Sys2Proof.Machine
end

