-- ==== Sys2Proof/Laws/Ops.lean ====
section
/-! SUPPORT. For each shared operation, everything it can do, said once: `Answers r P` says that the result `r` is a
next state with the property `P`. The provers cite these lemmas instead of unfolding an operation. -/

namespace Sys2Proof.Machine

/-- The result is a next state with the property. -/
def Answers (r : Result) (P : State → Prop) : Prop := ∃ t, r = .next t ∧ P t

theorem answers_next {t : State} {P : State → Prop} : Answers (.next t) P ↔ P t := by
  constructor
  · rintro ⟨u, h, hp⟩; cases h; exact hp
  · exact fun hp => ⟨t, rfl, hp⟩

theorem Answers.mono {r : Result} {P Q : State → Prop} (h : Answers r P) (hpq : ∀ t, P t → Q t) : Answers r Q :=
  let ⟨t, ht, hp⟩ := h; ⟨t, ht, hpq t hp⟩

/-- What holds of the next state of a result that answers. -/
theorem Answers.of_next {r : Result} {P : State → Prop} {t : State} (h : Answers r P) (ht : r = .next t) : P t := by
  obtain ⟨u, hu, hp⟩ := h
  rw [hu] at ht; cases ht; exact hp

/-! ## Faults, issue, registers -/

/-- The state after a fault. -/
abbrev State.fault (s : State) (k : FaultKind) : State := { s with status := .faulted k }

theorem answers_raise {k : FaultKind} {s : State} {P : State → Prop} : Answers (raise k s) P ↔ P (s.fault k) :=
  answers_next

/-- `issue` runs the body where the encoding is legal and the group supported. -/
theorem issue_pass {g : Group} {regs : List RegNum} {s : State} (body : Result) (hr : regs.all isReg = true)
    (hg : supports s.params.groups g = true) : issue g regs s body = body := by simp only [issue, hr, hg, if_true]

theorem issue_unsupported {g : Group} {regs : List RegNum} {s : State} (body : Result) (hr : regs.all isReg = true)
    (hg : supports s.params.groups g = false) : issue g regs s body = raise (.unsupportedInstruction s.pc) s := by
  simp [issue, hr, hg]

theorem issue_illegal {g : Group} {regs : List RegNum} {s : State} (body : Result) (hr : regs.all isReg = false) :
    issue g regs s body = raise (.illegalInstruction s.pc) s := by simp only [issue, hr]; rfl

/-- Everything `issue` can do. -/
theorem answers_issue {g : Group} {regs : List RegNum} {s : State} {body : Result} {P : State → Prop}
    (hf : ∀ k, P (s.fault k))
    (hb : regs.all isReg = true → supports s.params.groups g = true → Answers body P) :
    Answers (issue g regs s body) P := by
  simp only [issue]
  split
  · rename_i hr
    split
    · rename_i hg; exact hb hr hg
    · exact answers_raise.mpr (hf _)
  · exact answers_raise.mpr (hf _)

theorem withReg_some {r : RegNum} {s : State} {v : Word} (body : Word → Result) (h : s.reg r = some v) :
    withReg r s body = body v := by simp only [withReg, h]

theorem withReg_none {r : RegNum} {s : State} (body : Word → Result) (h : s.reg r = none) :
    withReg r s body = raise (.uninitRegister r) s := by simp only [withReg, h]

/-- Everything `withReg` can do. -/
theorem answers_withReg {r : RegNum} {s : State} {body : Word → Result} {P : State → Prop}
    (hf : ∀ k, P (s.fault k)) (hb : ∀ v, s.reg r = some v → Answers (body v) P) : Answers (withReg r s body) P := by
  cases h : s.reg r with
  | none => rw [withReg_none body h]; exact answers_raise.mpr (hf _)
  | some v => rw [withReg_some body h]; exact hb v h

/-- Everything `withLookup` can do. -/
theorem answers_withLookup {found : Option Word} {q : PlatformQuery} {s : State} {body : Word → Result}
    {P : State → Prop} (hf : ∀ k, P (s.fault k)) (hb : ∀ v, found = some v → Answers (body v) P) :
    Answers (withLookup found q s body) P := by
  cases found with
  | none => exact answers_raise.mpr (hf _)
  | some v => exact hb v rfl

/-! ## The environment -/

/-- The environment changes memory and its own turns to come, nothing else. -/
theorem envTurn_eq (s : State) : envTurn s = { s with mem := (envTurn s).mem, env := (envTurn s).env } := by
  unfold envTurn; split <;> rfl

@[simp] theorem envTurn_x (s : State) : (envTurn s).x = s.x := by rw [envTurn_eq]
@[simp] theorem envTurn_pc (s : State) : (envTurn s).pc = s.pc := by rw [envTurn_eq]
@[simp] theorem envTurn_calls (s : State) : (envTurn s).calls = s.calls := by rw [envTurn_eq]
@[simp] theorem envTurn_status (s : State) : (envTurn s).status = s.status := by rw [envTurn_eq]
@[simp] theorem envTurn_params (s : State) : (envTurn s).params = s.params := by rw [envTurn_eq]
@[simp] theorem envTurn_draws (s : State) : (envTurn s).draws = s.draws := by rw [envTurn_eq]
@[simp] theorem envTurn_reg (s : State) (r : RegNum) : (envTurn s).reg r = s.reg r := State.reg_congr (envTurn_x s) r

/-- Where no byte is shared the environment does nothing. -/
theorem envTurn_idle {s : State} (h : s.params.shared = []) : envTurn s = s := by simp only [envTurn, h]

/-- Running on for `n` turns and then for `m` is running on for `m + n`. -/
theorem Environment.after_after (n m : Nat) (e : Environment) :
    Environment.after m (Environment.after n e) = Environment.after (n + m) e := by
  induction n generalizing e with
  | zero => rw [Nat.zero_add]; rfl
  | succ n ih => rw [Nat.succ_add]; exact ih e.rest

theorem Environment.Leads.refl (e : Environment) : e.Leads e := ⟨0, rfl⟩

theorem Environment.Leads.trans {e f g : Environment} (h : e.Leads f) (h' : f.Leads g) : e.Leads g := by
  obtain ⟨n, rfl⟩ := h
  obtain ⟨m, rfl⟩ := h'
  exact ⟨n + m, Environment.after_after n m e⟩

/-- A turn that is to come later is to come now. -/
theorem Environment.Leads.comes {e f : Environment} (h : e.Leads f) {t : EnvTurn} (ht : f.Comes t) : e.Comes t := by
  obtain ⟨n, rfl⟩ := h
  obtain ⟨m, rfl⟩ := ht
  exact ⟨n + m, by rw [Environment.after_after]⟩

/-- Writes by the environment, one after the other, leave a byte that is not shared. -/
theorem envWrites_read (p : Params) (t : EnvTurn) (m : Memory) {a : Nat} (h : isShared p a = false) :
    (t.foldl (envWrite p) m).read a = m.read a := by
  induction t generalizing m with
  | nil => rfl
  | cons w t ih =>
    rw [List.foldl_cons, ih]
    simp only [envWrite]
    split
    · rename_i hw
      exact Memory.read_write_other m w.2 (fun e => by rw [e] at h; rw [h] at hw; cases hw)
    · rfl

theorem envWrites_wf (p : Params) (t : EnvTurn) {m : Memory} (hm : m.wf = true) :
    (t.foldl (envWrite p) m).wf = true := by
  induction t generalizing m with
  | nil => exact hm
  | cons w t ih =>
    rw [List.foldl_cons]
    apply ih
    simp only [envWrite]
    split
    · exact Memory.wf_write w.2 hm w.1.isLt
    · exact hm

/-- After writes by the environment a byte holds what it held or what one of the writes gives it. -/
theorem envWrites_source (p : Params) (t : EnvTurn) {m : Memory} (hm : m.wf = true) (a : Nat) :
    (t.foldl (envWrite p) m).read a = m.read a ∨ ∃ w ∈ t, w.1.toNat = a ∧ (t.foldl (envWrite p) m).read a = w.2 := by
  induction t generalizing m with
  | nil => exact .inl rfl
  | cons w t ih =>
    rw [List.foldl_cons]
    have hw : (envWrite p m w).wf = true := envWrites_wf p [w] hm
    rcases ih hw with h | ⟨w', hw', ha, h⟩
    · rw [h]
      simp only [envWrite]
      split
      · by_cases e : a = w.1.toNat
        · subst e
          exact .inr ⟨w, List.mem_cons_self .., rfl, Memory.read_write_self hm _ _⟩
        · exact .inl (Memory.read_write_other m w.2 e)
      · exact .inl rfl
    · exact .inr ⟨w', List.mem_cons_of_mem _ hw', ha, h⟩

theorem envTurn_read (s : State) {a : Nat} (h : isShared s.params a = false) :
    (envTurn s).mem.read a = s.mem.read a := by
  simp only [envTurn]
  split
  · rfl
  · exact envWrites_read _ _ _ h

theorem envTurn_wf {s : State} (h : s.mem.wf = true) : (envTurn s).mem.wf = true := by
  simp only [envTurn]
  split
  · exact h
  · exact envWrites_wf _ _ h

/-- The turns left are among those to come. -/
theorem envTurn_env (s : State) : s.env.Leads (envTurn s).env := by
  simp only [envTurn]
  split
  · exact .refl _
  · exact ⟨1, rfl⟩

theorem envTurn_source {s : State} (hm : s.mem.wf = true) (a : Nat) :
    (envTurn s).mem.read a = s.mem.read a ∨
      ∃ t, s.env.Comes t ∧ ∃ w ∈ t, w.1.toNat = a ∧ (envTurn s).mem.read a = w.2 := by
  simp only [envTurn]
  split
  · exact .inl rfl
  · rcases envWrites_source s.params s.env.next hm a with h' | ⟨w, hw, ha, h'⟩
    · exact .inl h'
    · exact .inr ⟨_, ⟨0, rfl⟩, w, hw, ha, h'⟩

/-! ## Torn accesses -/

/-- Torn reads change memory and the turns to come, nothing else. -/
theorem readTorn_eq (n a : Nat) (s : State) :
    (readTorn n a s).2 = { s with mem := (readTorn n a s).2.mem, env := (readTorn n a s).2.env } := by
  induction n generalizing a s with
  | zero => exact envTurn_eq s
  | succ n ih =>
    simp only [readTorn]
    rw [ih]
    rw [envTurn_eq]

@[simp] theorem readTorn_length (n a : Nat) (s : State) : (readTorn n a s).1.length = n := by
  induction n generalizing a s with
  | zero => rfl
  | succ n ih => simp [readTorn, ih]

@[simp] theorem readTorn_x (n a : Nat) (s : State) : (readTorn n a s).2.x = s.x := by rw [readTorn_eq]
@[simp] theorem readTorn_pc (n a : Nat) (s : State) : (readTorn n a s).2.pc = s.pc := by rw [readTorn_eq]
@[simp] theorem readTorn_calls (n a : Nat) (s : State) : (readTorn n a s).2.calls = s.calls := by rw [readTorn_eq]
@[simp] theorem readTorn_status (n a : Nat) (s : State) : (readTorn n a s).2.status = s.status := by rw [readTorn_eq]
@[simp] theorem readTorn_params (n a : Nat) (s : State) : (readTorn n a s).2.params = s.params := by rw [readTorn_eq]
@[simp] theorem readTorn_draws (n a : Nat) (s : State) : (readTorn n a s).2.draws = s.draws := by rw [readTorn_eq]
@[simp] theorem readTorn_reg (n a : Nat) (s : State) (r : RegNum) : (readTorn n a s).2.reg r = s.reg r :=
  State.reg_congr (readTorn_x n a s) r

theorem readTorn_wf (n a : Nat) {s : State} (h : s.mem.wf = true) : (readTorn n a s).2.mem.wf = true := by
  induction n generalizing a s with
  | zero => exact envTurn_wf h
  | succ n ih => exact ih (a + 1) (envTurn_wf h)

/-- Torn reads leave every byte that is not shared. -/
theorem readTorn_read (n a : Nat) (s : State) {c : Nat} (h : isShared s.params c = false) :
    (readTorn n a s).2.mem.read c = s.mem.read c := by
  induction n generalizing a s with
  | zero => exact envTurn_read s h
  | succ n ih =>
    simp only [readTorn]
    rw [ih (a + 1) (envTurn s) (by simpa using h), envTurn_read s h]

theorem readTorn_env (n a : Nat) (s : State) : s.env.Leads (readTorn n a s).2.env := by
  induction n generalizing a s with
  | zero => exact envTurn_env s
  | succ n ih => exact (envTurn_env s).trans (ih (a + 1) (envTurn s))

/-- Each byte of a torn read is what stood there, or what a turn of the environment stored there. -/
theorem readTorn_source (n a : Nat) {s : State} (hm : s.mem.wf = true) {k : Nat} (hk : k < n) :
    (readTorn n a s).1[k]'(by simpa using hk) = s.mem.read (a + k) ∨
      ∃ t, s.env.Comes t ∧ ∃ w ∈ t, w.1.toNat = a + k ∧ (readTorn n a s).1[k]'(by simpa using hk) = w.2 := by
  induction n generalizing a s k with
  | zero => cases hk
  | succ n ih =>
    cases k with
    | zero => simpa [readTorn] using envTurn_source hm a
    | succ k =>
      simp only [readTorn, List.getElem_cons_succ]
      rw [show a + (k + 1) = a + 1 + k by omega]
      rcases ih (a + 1) (envTurn_wf hm) (k := k) (by omega) with h | ⟨t, ht, w, hw, ha, h⟩
      · rw [h]
        exact envTurn_source hm (a + 1 + k)
      · exact .inr ⟨t, (envTurn_env s).comes ht, w, hw, ha, h⟩

/-- A byte of a torn read that is not shared is what stood there. -/
theorem readTorn_unshared (n a : Nat) (s : State) {k : Nat} (hk : k < n) (h : isShared s.params (a + k) = false) :
    (readTorn n a s).1[k]'(by simpa using hk) = s.mem.read (a + k) := by
  induction n generalizing a s k with
  | zero => cases hk
  | succ n ih =>
    cases k with
    | zero => simpa [readTorn] using envTurn_read s h
    | succ k =>
      simp only [readTorn, List.getElem_cons_succ]
      rw [show a + (k + 1) = a + 1 + k by omega] at h ⊢
      rw [ih (a + 1) (envTurn s) (k := k) (by omega) (by simpa using h), envTurn_read s h]

/-- Torn writes change memory and the turns to come, nothing else. -/
theorem writeTorn_eq (bs : List Byte) (a : Nat) (s : State) :
    writeTorn bs a s = { s with mem := (writeTorn bs a s).mem, env := (writeTorn bs a s).env } := by
  induction bs generalizing a s with
  | nil => exact envTurn_eq s
  | cons b bs ih =>
    simp only [writeTorn]
    rw [ih]
    rw [envTurn_eq]

@[simp] theorem writeTorn_x (bs : List Byte) (a : Nat) (s : State) : (writeTorn bs a s).x = s.x := by
  rw [writeTorn_eq]
@[simp] theorem writeTorn_pc (bs : List Byte) (a : Nat) (s : State) : (writeTorn bs a s).pc = s.pc := by
  rw [writeTorn_eq]
@[simp] theorem writeTorn_calls (bs : List Byte) (a : Nat) (s : State) : (writeTorn bs a s).calls = s.calls := by
  rw [writeTorn_eq]
@[simp] theorem writeTorn_status (bs : List Byte) (a : Nat) (s : State) : (writeTorn bs a s).status = s.status := by
  rw [writeTorn_eq]
@[simp] theorem writeTorn_params (bs : List Byte) (a : Nat) (s : State) : (writeTorn bs a s).params = s.params := by
  rw [writeTorn_eq]
@[simp] theorem writeTorn_draws (bs : List Byte) (a : Nat) (s : State) : (writeTorn bs a s).draws = s.draws := by
  rw [writeTorn_eq]
@[simp] theorem writeTorn_reg (bs : List Byte) (a : Nat) (s : State) (r : RegNum) :
    (writeTorn bs a s).reg r = s.reg r := State.reg_congr (writeTorn_x bs a s) r

theorem writeTorn_wf (bs : List Byte) (a : Nat) {s : State} (h : s.mem.wf = true) (ha : a + bs.length ≤ 2 ^ 64) :
    (writeTorn bs a s).mem.wf = true := by
  induction bs generalizing a s with
  | nil => exact envTurn_wf h
  | cons b bs ih =>
    simp only [List.length_cons] at ha
    exact ih (a + 1) (s := { envTurn s with mem := _ }) (Memory.wf_write b (envTurn_wf h) (by omega)) (by omega)

/-- Torn writes leave every byte outside them that is not shared. -/
theorem writeTorn_outside (bs : List Byte) (a : Nat) (s : State) {c : Nat} (h : isShared s.params c = false)
    (hc : c < a ∨ a + bs.length ≤ c) : (writeTorn bs a s).mem.read c = s.mem.read c := by
  induction bs generalizing a s with
  | nil => exact envTurn_read s h
  | cons b bs ih =>
    simp only [List.length_cons] at hc
    simp only [writeTorn]
    rw [ih _ _ (by simpa using h) (by omega)]
    exact (Memory.read_write_other _ b (by omega)).trans (envTurn_read s h)

/-- A byte of a torn write that is not shared is the byte stored. -/
theorem writeTorn_unshared (bs : List Byte) (a : Nat) {s : State} (hm : s.mem.wf = true)
    (ha : a + bs.length ≤ 2 ^ 64) {k : Nat} (hk : k < bs.length) (h : isShared s.params (a + k) = false) :
    (writeTorn bs a s).mem.read (a + k) = bs[k] := by
  induction bs generalizing a s k with
  | nil => cases hk
  | cons b bs ih =>
    simp only [List.length_cons] at ha hk
    cases k with
    | zero =>
      simp only [writeTorn, List.getElem_cons_zero]
      rw [writeTorn_outside _ _ _ (by simpa using h) (by omega)]
      exact Memory.read_write_self (envTurn_wf hm) _ _
    | succ k =>
      simp only [writeTorn, List.getElem_cons_succ]
      rw [show a + (k + 1) = a + 1 + k by omega] at h ⊢
      exact ih (a + 1) (s := { envTurn s with mem := _ }) (Memory.wf_write b (envTurn_wf hm) (by omega)) (by omega)
        (by omega) (by simpa using h)

/-! ## Memory accesses -/

/-- An access that is performed lies inside the address space (20_memory.md R64). -/
theorem accessible_le {p : Params} {a : Word} {n : Nat} {k : AccessKind} (h : accessible p a n k = true) :
    a.toNat + n ≤ 2 ^ 64 := by
  simp only [accessible, admits, Bool.and_eq_true, decide_eq_true_eq] at h
  exact h.1.1

/-- `MemRead` in one event. -/
theorem memRead_whole {a : Word} {n : Nat} {s : State} (body : Word → State → Result)
    (ha : accessible s.params a n .load = true) (ht : tears s.params a n = false) :
    memRead a n s body = body (valueOf s.params.endian (readBytes s.mem a.toNat n)) s := by
  simp [memRead, ha, ht]

/-- `MemRead` in single-byte events. -/
theorem memRead_torn {a : Word} {n : Nat} {s : State} (body : Word → State → Result)
    (ha : accessible s.params a n .load = true) (ht : tears s.params a n = true) :
    memRead a n s body =
      body (valueOf s.params.endian (readTorn n a.toNat s).1) (readTorn n a.toNat s).2 := by simp [memRead, ha, ht]

theorem memRead_fault {a : Word} {n : Nat} {s : State} (body : Word → State → Result)
    (ha : accessible s.params a n .load = false) : memRead a n s body = raise (.memoryFault a n .load) s := by
  simp [memRead, ha]

/-- Everything `MemRead` can do. -/
theorem answers_memRead {a : Word} {n : Nat} {s : State} {body : Word → State → Result} {P : State → Prop}
    (hf : ∀ k, P (s.fault k))
    (hb : accessible s.params a n .load = true → tears s.params a n = false →
      Answers (body (valueOf s.params.endian (readBytes s.mem a.toNat n)) s) P)
    (ht : accessible s.params a n .load = true → tears s.params a n = true →
      Answers (body (valueOf s.params.endian (readTorn n a.toNat s).1) (readTorn n a.toNat s).2) P) :
    Answers (memRead a n s body) P := by
  cases ha : accessible s.params a n .load with
  | false => rw [memRead_fault body ha]; exact answers_raise.mpr (hf _)
  | true =>
    cases h : tears s.params a n with
    | false => rw [memRead_whole body ha h]; exact hb ha h
    | true => rw [memRead_torn body ha h]; exact ht ha h

theorem memWrite_whole {a : Word} {n : Nat} {v : Word} {s : State} (body : State → Result)
    (ha : accessible s.params a n .store = true) (ht : tears s.params a n = false) :
    memWrite a n v s body = body (storeAt a n v s) := by simp [memWrite, ha, ht]

theorem memWrite_torn {a : Word} {n : Nat} {v : Word} {s : State} (body : State → Result)
    (ha : accessible s.params a n .store = true) (ht : tears s.params a n = true) :
    memWrite a n v s body = body (writeTorn (bytesOf s.params.endian n v) a.toNat s) := by simp [memWrite, ha, ht]

theorem memWrite_fault {a : Word} {n : Nat} {v : Word} {s : State} (body : State → Result)
    (ha : accessible s.params a n .store = false) : memWrite a n v s body = raise (.memoryFault a n .store) s := by
  simp [memWrite, ha]

/-- Everything `MemWrite` can do. -/
theorem answers_memWrite {a : Word} {n : Nat} {v : Word} {s : State} {body : State → Result} {P : State → Prop}
    (hf : ∀ k, P (s.fault k))
    (hb : accessible s.params a n .store = true → tears s.params a n = false → Answers (body (storeAt a n v s)) P)
    (ht : accessible s.params a n .store = true → tears s.params a n = true →
      Answers (body (writeTorn (bytesOf s.params.endian n v) a.toNat s)) P) :
    Answers (memWrite a n v s body) P := by
  cases ha : accessible s.params a n .store with
  | false => rw [memWrite_fault body ha]; exact answers_raise.mpr (hf _)
  | true =>
    cases h : tears s.params a n with
    | false => rw [memWrite_whole body ha h]; exact hb ha h
    | true => rw [memWrite_torn body ha h]; exact ht ha h

theorem atomicRmw_some {a : Word} {n : Nat} {f : Word → Option Word} {s : State} {v : Word}
    (body : Word → State → Result) (ha : accessible s.params a n .atomic = true)
    (hv : f (valueOf s.params.endian (readBytes s.mem a.toNat n)) = some v) :
    atomicRmw a n f s body = body (valueOf s.params.endian (readBytes s.mem a.toNat n)) (storeAt a n v s) := by
  simp [atomicRmw, ha, hv]

theorem atomicRmw_none {a : Word} {n : Nat} {f : Word → Option Word} {s : State}
    (body : Word → State → Result) (ha : accessible s.params a n .atomic = true)
    (hv : f (valueOf s.params.endian (readBytes s.mem a.toNat n)) = none) :
    atomicRmw a n f s body = body (valueOf s.params.endian (readBytes s.mem a.toNat n)) s := by
  simp [atomicRmw, ha, hv]

theorem atomicRmw_fault {a : Word} {n : Nat} {f : Word → Option Word} {s : State} (body : Word → State → Result)
    (ha : accessible s.params a n .atomic = false) : atomicRmw a n f s body = raise (.memoryFault a n .atomic) s := by
  simp [atomicRmw, ha]

/-- Everything `AtomicRMW` can do. -/
theorem answers_atomicRmw {a : Word} {n : Nat} {f : Word → Option Word} {s : State} {body : Word → State → Result}
    {P : State → Prop} (hf : ∀ k, P (s.fault k))
    (hs : ∀ old v, accessible s.params a n .atomic = true →
      old = valueOf s.params.endian (readBytes s.mem a.toNat n) → f old = some v →
      Answers (body old (storeAt a n v s)) P)
    (hn : ∀ old, accessible s.params a n .atomic = true →
      old = valueOf s.params.endian (readBytes s.mem a.toNat n) → f old = none → Answers (body old s) P) :
    Answers (atomicRmw a n f s body) P := by
  cases ha : accessible s.params a n .atomic with
  | false => rw [atomicRmw_fault body ha]; exact answers_raise.mpr (hf _)
  | true =>
    cases h : f (valueOf s.params.endian (readBytes s.mem a.toNat n)) with
    | none => rw [atomicRmw_none body ha h]; exact hn _ ha rfl h
    | some v => rw [atomicRmw_some body ha h]; exact hs _ v ha rfl h

/-- Storing keeps the canonical form of memory. -/
theorem storeAt_wf {a : Word} {n : Nat} {v : Word} {s : State} (h : s.mem.wf = true) (ha : a.toNat + n ≤ 2 ^ 64) :
    (storeAt a n v s).mem.wf = true := wf_writeBytes _ h (by simpa using ha)

/-! ## Values in memory -/

theorem bytesOf_getElem (e : Endian) (n : Nat) (v : Word) (k : Nat) (h : k < (bytesOf e n v).length) :
    (bytesOf e n v)[k] = byteOf v (lane e n k) := by
  cases e <;> simp [bytesOf, byteOf, lane]

/-- A value of bytes is made of those bytes. -/
theorem madeOf_valueOf (e : Endian) (bs : List Byte) (h8 : bs.length ≤ 8) (byte : Nat → Byte)
    (h : ∀ k (hk : k < bs.length), bs[k] = byte k) : MadeOf e bs.length (valueOf e bs) byte := by
  refine ⟨valueOf_lt e bs h8, fun k hk => ?_⟩
  have hb : (bytesOf e bs.length (valueOf e bs))[k]'(by simpa using hk) = bs[k] := by
    congr 1; exact bytesOf_valueOf e bs h8
  rw [← h k hk, ← hb, bytesOf_getElem]

theorem holdsAt_readBytes (s : State) (a : Word) {n : Nat} (hn : n ≤ 8) :
    HoldsAt s a n (valueOf s.params.endian (readBytes s.mem a.toNat n)) := by
  have h := madeOf_valueOf s.params.endian (readBytes s.mem a.toNat n) (by simpa using hn)
    (fun k => s.mem.read (a.toNat + k)) (by simp)
  simpa [HoldsAt] using h

/-- A value is made of its bytes in one way only. -/
theorem MadeOf.unique {e : Endian} {n : Nat} {v w : Word} {byte : Nat → Byte} (hv : MadeOf e n v byte)
    (hw : MadeOf e n w byte) : v = w := by
  have key : ∀ j, j < n → byteOf v j = byteOf w j := by
    intro j hj
    cases e with
    | little => exact (hv.2 j hj).trans (hw.2 j hj).symm
    | big =>
      have h1 := hv.2 (n - 1 - j) (by omega)
      have h2 := hw.2 (n - 1 - j) (by omega)
      rw [show lane .big n (n - 1 - j) = j by simp only [lane]; omega] at h1 h2
      rw [h1, h2]
  have low : ∀ m, m ≤ n → v.toNat % 2 ^ (8 * m) = w.toNat % 2 ^ (8 * m) := by
    intro m hm
    induction m with
    | zero => simp [Nat.mod_one]
    | succ m ih =>
      have h := congrArg BitVec.toNat (key m (by omega))
      rw [byteOf_toNat, byteOf_toNat] at h
      rw [Nat.mul_add, Nat.pow_add, Nat.mod_mul, Nat.mod_mul, ih (by omega)]
      simpa using h
  have h := low n (Nat.le_refl n)
  rw [Nat.mod_eq_of_lt hv.1, Nat.mod_eq_of_lt hw.1] at h
  exact BitVec.eq_of_toNat_eq h

/-- Storing puts the low bytes of the value at the address, and leaves the rest. -/
theorem storesAt_storeAt {s : State} {a : Word} {n : Nat} (v : Word) (hm : s.mem.wf = true)
    (ha : a.toNat + n ≤ 2 ^ 64) : StoresAt s (storeAt a n v s) a n v := by
  refine ⟨fun k hk => ?_, fun c hc => ?_⟩
  · rw [storeAt_mem, read_writeBytes _ hm (by simpa using ha) (by simpa using hk), bytesOf_getElem]
  · rw [storeAt_mem, read_writeBytes_outside _ _ _ (by simpa using hc)]

/-! ## The platform -/

/-- The platform's registers and bytes change the registers, memory and the count of answers, nothing else. -/
theorem applyAnswer_eq (regs : List (RegNum × Option Word)) (bytes : List (Word × Byte)) (s : State) :
    applyAnswer regs bytes s = { s with
      x := (regs.foldl (fun t w => t.putReg w.1 w.2) s).x
      mem := bytes.foldl (fun m w => m.write w.1.toNat w.2) s.mem
      draws := s.draws + 1 } := by
  have h : ∀ (l : List (RegNum × Option Word)) (t : State),
      l.foldl (fun t w => t.putReg w.1 w.2) t = { t with x := (l.foldl (fun t w => t.putReg w.1 w.2) t).x } := by
    intro l
    induction l with
    | nil => intro t; rfl
    | cons w l ih => intro t; rw [List.foldl_cons, ih]; rfl
  simp only [applyAnswer]
  rw [h]

@[simp] theorem applyAnswer_pc (regs : List (RegNum × Option Word)) (bytes : List (Word × Byte)) (s : State) :
    (applyAnswer regs bytes s).pc = s.pc := by rw [applyAnswer_eq]
@[simp] theorem applyAnswer_calls (regs : List (RegNum × Option Word)) (bytes : List (Word × Byte)) (s : State) :
    (applyAnswer regs bytes s).calls = s.calls := by rw [applyAnswer_eq]
@[simp] theorem applyAnswer_status (regs : List (RegNum × Option Word)) (bytes : List (Word × Byte)) (s : State) :
    (applyAnswer regs bytes s).status = s.status := by rw [applyAnswer_eq]
@[simp] theorem applyAnswer_params (regs : List (RegNum × Option Word)) (bytes : List (Word × Byte)) (s : State) :
    (applyAnswer regs bytes s).params = s.params := by rw [applyAnswer_eq]
@[simp] theorem applyAnswer_env (regs : List (RegNum × Option Word)) (bytes : List (Word × Byte)) (s : State) :
    (applyAnswer regs bytes s).env = s.env := by rw [applyAnswer_eq]
@[simp] theorem applyAnswer_draws (regs : List (RegNum × Option Word)) (bytes : List (Word × Byte)) (s : State) :
    (applyAnswer regs bytes s).draws = s.draws + 1 := rfl

theorem applyAnswer_wf (regs : List (RegNum × Option Word)) (bytes : List (Word × Byte)) {s : State}
    (h : s.mem.wf = true) : (applyAnswer regs bytes s).mem.wf = true := by
  have key : ∀ (l : List (Word × Byte)) (m : Memory), m.wf = true →
      (l.foldl (fun m w => m.write w.1.toNat w.2) m).wf = true := by
    intro l
    induction l with
    | nil => exact fun _ h => h
    | cons w l ih => exact fun m h => ih _ (Memory.wf_write w.2 h w.1.isLt)
  exact key bytes s.mem h

/-- A register after the platform's answer: the last content given to it, else the old one. -/
theorem applyAnswer_reg (regs : List (RegNum × Option Word)) (bytes : List (Word × Byte)) (s : State) {r : RegNum}
    (hr : isReg r = true) : (applyAnswer regs bytes s).reg r = (regs.reverse.lookup r).getD (s.reg r) := by
  have key : ∀ (l : List (RegNum × Option Word)) (t : State),
      (l.foldl (fun t w => t.putReg w.1 w.2) t).reg r = (l.reverse.lookup r).getD (t.reg r) := by
    intro l
    induction l with
    | nil => exact fun _ => rfl
    | cons w l ih =>
      intro t
      obtain ⟨q, v⟩ := w
      rw [List.foldl_cons, ih, List.reverse_cons, List.lookup_append, State.reg_putReg]
      cases l.reverse.lookup r with
      | some v => rfl
      | none =>
        by_cases e : r = q
        · subst e; simp [hr]
        · simp [List.lookup_cons, e, beq_eq_false_iff_ne.mpr e]
  exact key regs s

/-- A byte of memory after the platform's answer: the last one written there, else the old one. -/
theorem applyAnswer_read (regs : List (RegNum × Option Word)) (bytes : List (Word × Byte)) {s : State}
    (hm : s.mem.wf = true) (a : Word) :
    (applyAnswer regs bytes s).mem.read a.toNat = (bytes.reverse.lookup a).getD (s.mem.read a.toNat) := by
  have key : ∀ (l : List (Word × Byte)) (m : Memory), m.wf = true →
      (l.foldl (fun m w => m.write w.1.toNat w.2) m).read a.toNat = (l.reverse.lookup a).getD (m.read a.toNat) := by
    intro l
    induction l with
    | nil => exact fun _ _ => rfl
    | cons w l ih =>
      intro m hm
      obtain ⟨c, b⟩ := w
      rw [List.foldl_cons, ih _ (Memory.wf_write b hm c.isLt), List.reverse_cons, List.lookup_append]
      cases l.reverse.lookup a with
      | some v => rfl
      | none =>
        by_cases e : a = c
        · subst e; simp [Memory.read_write_self hm]
        · have ne : a.toNat ≠ c.toNat := fun h => e (BitVec.eq_of_toNat_eq h)
          simp [List.lookup_cons, beq_eq_false_iff_ne.mpr e, Memory.read_write_other _ _ ne]
  exact key bytes s.mem hm

/-- Everything a platform call can do. -/
theorem answers_platformCall {fn : PlatformFn} {s : State} {P : State → Prop} (hf : ∀ k, P (s.fault k))
    (hr : ∀ regs bytes, answerOf s fn = some (.returns regs bytes) → P ((applyAnswer regs bytes s).advance 1)) :
    Answers (platformCall fn s) P := by
  simp only [platformCall]
  split
  · rename_i regs bytes h; exact answers_next.mpr (hr regs bytes h)
  · exact answers_raise.mpr (hf _)

end Sys2Proof.Machine
end

