-- ==== Sys2Proof/Laws/Access.lean ====
section
/-! SUPPORT. The checks of an access in the words of Safety.lean, and what the environment can do to each byte during a
torn access. -/

namespace Sys2Proof.Machine

/-! ## The checks -/

theorem isShared_iff {p : Params} {a : Nat} : isShared p a = true ↔ SharedByte p a := by
  simp [isShared, SharedByte]

/-- An access is performed exactly where `accessible` says so. -/
theorem accessible_iff {p : Params} {a : Word} {n : Nat} {k : AccessKind} :
    accessible p a n k = true ↔ Performed p a n k := by
  simp only [accessible, admits, misaligned, covers, Performed, Bool.and_eq_true, Bool.not_eq_true',
    decide_eq_true_eq, List.any_eq_true, List.contains_iff_mem, and_assoc, Bool.and_eq_false_iff,
    bne_eq_false_iff_eq, Bool.or_eq_false_iff, beq_eq_false_iff_ne, Bool.not_eq_false']

theorem accessible_eq_false {p : Params} {a : Word} {n : Nat} {k : AccessKind} (h : ¬Performed p a n k) :
    accessible p a n k = false := by
  rw [← Bool.not_eq_true, accessible_iff]; exact h

/-- An access is torn exactly where `tears` says so. -/
theorem tears_iff {p : Params} {a : Word} {n : Nat} : tears p a n = true ↔ Torn p a n := by
  simp only [tears, Torn, Bool.and_eq_true, decide_eq_true_eq, List.any_eq_true, List.mem_range, isShared_iff,
    Bool.not_eq_true', Bool.and_eq_false_iff, beq_eq_false_iff_ne]
  constructor
  · rintro ⟨⟨h1, h2⟩, h3⟩
    exact ⟨h1, h3, by rintro ⟨h4, h5⟩; rcases h2 with h | h <;> simp_all⟩
  · rintro ⟨h1, h2, h3⟩
    refine ⟨⟨h1, ?_⟩, h2⟩
    cases hp : p.plainAccessAtomic
    · exact .inl rfl
    · exact .inr fun h => h3 ⟨hp, h⟩

theorem tears_eq_false {p : Params} {a : Word} {n : Nat} (h : ¬Torn p a n) : tears p a n = false := by
  rw [← Bool.not_eq_true, tears_iff]; exact h

/-- An access of one byte is never torn. -/
theorem not_torn_one (p : Params) (a : Word) : ¬Torn p a 1 := fun h => absurd h.1 (by decide)

/-! ## What the environment can do to a byte -/

theorem Settled.refl (s : State) (a : Nat) (b : Byte) : Settled s a b b := .inl rfl

/-- What is settled for the turns left is settled for all. -/
theorem Settled.mono {s s' : State} {a : Nat} {old b : Byte} (h : Settled s' a old b)
    (hp : s'.params = s.params) (he : s.env.Leads s'.env) : Settled s a old b := by
  rcases h with h | ⟨hs, t, ht, h⟩
  · exact .inl h
  · exact .inr ⟨hp ▸ hs, t, he.comes ht, h⟩

theorem Settled.trans {s : State} {a : Nat} {old mid b : Byte} (h1 : Settled s a old mid) (h2 : Settled s a mid b) :
    Settled s a old b := by
  rcases h2 with rfl | h
  · exact h1
  · exact .inr h

/-- One turn of the environment. -/
theorem settled_envTurn {s : State} (hm : s.mem.wf = true) (a : Nat) :
    Settled s a (s.mem.read a) ((envTurn s).mem.read a) := by
  by_cases hs : SharedByte s.params a
  · rcases envTurn_source hm a with h | ⟨t, ht, w, hw, ha, h⟩
    · exact .inl h
    · exact .inr ⟨hs, t, ht, w, hw, ha, h.symm⟩
  · exact .inl (envTurn_read s (by rw [← Bool.not_eq_true, isShared_iff]; exact hs))

/-- Each byte a torn read answers. -/
theorem settled_readTorn (n a : Nat) {s : State} (hm : s.mem.wf = true) {k : Nat} (hk : k < n) :
    Settled s (a + k) (s.mem.read (a + k)) ((readTorn n a s).1[k]'(by simpa using hk)) := by
  by_cases hs : SharedByte s.params (a + k)
  · rcases readTorn_source n a hm hk with h | ⟨t, ht, w, hw, ha, h⟩
    · exact .inl h
    · exact .inr ⟨hs, t, ht, w, hw, ha, h.symm⟩
  · exact .inl (readTorn_unshared n a s hk (by rw [← Bool.not_eq_true, isShared_iff]; exact hs))

/-- Each byte of memory after a torn read. -/
theorem settled_readTorn_mem (n a : Nat) {s : State} (hm : s.mem.wf = true) (c : Nat) :
    Settled s c (s.mem.read c) ((readTorn n a s).2.mem.read c) := by
  induction n generalizing a s with
  | zero => exact settled_envTurn hm c
  | succ n ih =>
    exact (settled_envTurn hm c).trans
      ((ih (a + 1) (envTurn_wf hm)).mono (envTurn_params s) (envTurn_env s))

/-- The turns left after a torn write are among those to come. -/
theorem writeTorn_env (bs : List Byte) (a : Nat) (s : State) : s.env.Leads (writeTorn bs a s).env := by
  induction bs generalizing a s with
  | nil => exact envTurn_env s
  | cons b bs ih => exact (envTurn_env s).trans (ih (a + 1) { envTurn s with mem := (envTurn s).mem.write a b })

/-- Each byte outside a torn write. -/
theorem settled_writeTorn_outside (bs : List Byte) (a : Nat) {s : State} (hm : s.mem.wf = true)
    (ha : a + bs.length ≤ 2 ^ 64) {c : Nat} (hc : c < a ∨ a + bs.length ≤ c) :
    Settled s c (s.mem.read c) ((writeTorn bs a s).mem.read c) := by
  induction bs generalizing a s with
  | nil => exact settled_envTurn hm c
  | cons b bs ih =>
    simp only [List.length_cons] at ha hc
    have h := ih (a + 1) (s := { envTurn s with mem := (envTurn s).mem.write a b })
      (Memory.wf_write b (envTurn_wf hm) (by omega)) (by omega) (by omega)
    rw [show State.mem { envTurn s with mem := (envTurn s).mem.write a b } = (envTurn s).mem.write a b from rfl,
      Memory.read_write_other _ b (by omega)] at h
    exact (settled_envTurn hm c).trans (h.mono (envTurn_params s) (envTurn_env s))

/-- Each byte of a torn write. -/
theorem settled_writeTorn (bs : List Byte) (a : Nat) {s : State} (hm : s.mem.wf = true)
    (ha : a + bs.length ≤ 2 ^ 64) {k : Nat} (hk : k < bs.length) :
    Settled s (a + k) bs[k] ((writeTorn bs a s).mem.read (a + k)) := by
  induction bs generalizing a s k with
  | nil => cases hk
  | cons b bs ih =>
    simp only [List.length_cons] at ha hk
    have hw : ({ envTurn s with mem := (envTurn s).mem.write a b } : State).mem.wf = true :=
      Memory.wf_write b (envTurn_wf hm) (by omega)
    cases k with
    | zero =>
      have h := settled_writeTorn_outside bs (a + 1) hw (by omega) (c := a) (by omega)
      rw [show State.mem { envTurn s with mem := (envTurn s).mem.write a b } = (envTurn s).mem.write a b from rfl,
        Memory.read_write_self (envTurn_wf hm)] at h
      exact h.mono (envTurn_params s) (envTurn_env s)
    | succ k =>
      rw [show a + (k + 1) = a + 1 + k by omega]
      exact (ih (a + 1) hw (by omega) (k := k) (by omega)).mono (envTurn_params s) (envTurn_env s)

/-! ## Where no byte is shared -/

theorem readTorn_idle (n a : Nat) {s : State} (h : s.params.shared = []) :
    readTorn n a s = (readBytes s.mem a n, s) := by
  have key : (readTorn n a s).2 = s := by
    induction n generalizing a with
    | zero => exact envTurn_idle h
    | succ n ih => simp only [readTorn, envTurn_idle h]; exact ih (a + 1)
  refine Prod.ext (List.ext_getElem (by simp) fun k hk _ => ?_) key
  rw [readTorn_unshared n a s (by simpa using hk) (by simp [isShared, h]), readBytes_getElem]

end Sys2Proof.Machine
end

