-- ==== Sys2Proof/Laws/Exec.lean ====
section
/-! SUPPORT. The form of each instruction: what `exec` answers, as one application of an operand form. -/

namespace Sys2Proof.Machine

variable (dst src : RegNum) (off : Offset) (imm nextImm : Imm) (s : State)

theorem exec_add32K : exec (.add32K dst imm) s = alu32K .base32 aluAdd dst imm s := rfl

theorem exec_add32X : exec (.add32X dst src) s = alu32X .base32 aluAdd dst src s := rfl

theorem exec_add64K : exec (.add64K dst imm) s = alu64K .base64 aluAdd dst imm s := rfl

theorem exec_add64X : exec (.add64X dst src) s = alu64X .base64 aluAdd dst src s := rfl

theorem exec_sub32K : exec (.sub32K dst imm) s = alu32K .base32 aluSub dst imm s := rfl

theorem exec_sub32X : exec (.sub32X dst src) s = alu32X .base32 aluSub dst src s := rfl

theorem exec_sub64K : exec (.sub64K dst imm) s = alu64K .base64 aluSub dst imm s := rfl

theorem exec_sub64X : exec (.sub64X dst src) s = alu64X .base64 aluSub dst src s := rfl

theorem exec_mul32K : exec (.mul32K dst imm) s = alu32K .divmul32 aluMul dst imm s := rfl

theorem exec_mul32X : exec (.mul32X dst src) s = alu32X .divmul32 aluMul dst src s := rfl

theorem exec_mul64K : exec (.mul64K dst imm) s = alu64K .divmul64 aluMul dst imm s := rfl

theorem exec_mul64X : exec (.mul64X dst src) s = alu64X .divmul64 aluMul dst src s := rfl

theorem exec_div32K : exec (.div32K dst imm) s = alu32K .divmul32 aluDiv dst imm s := rfl

theorem exec_div32X : exec (.div32X dst src) s = alu32X .divmul32 aluDiv dst src s := rfl

theorem exec_div64K : exec (.div64K dst imm) s = alu64K .divmul64 aluDiv dst imm s := rfl

theorem exec_div64X : exec (.div64X dst src) s = alu64X .divmul64 aluDiv dst src s := rfl

theorem exec_sdiv32K : exec (.sdiv32K dst imm) s = alu32K .divmul32 aluSdiv dst imm s := rfl

theorem exec_sdiv32X : exec (.sdiv32X dst src) s = alu32X .divmul32 aluSdiv dst src s := rfl

theorem exec_sdiv64K : exec (.sdiv64K dst imm) s = alu64K .divmul64 aluSdiv dst imm s := rfl

theorem exec_sdiv64X : exec (.sdiv64X dst src) s = alu64X .divmul64 aluSdiv dst src s := rfl

theorem exec_or32K : exec (.or32K dst imm) s = alu32K .base32 aluOr dst imm s := rfl

theorem exec_or32X : exec (.or32X dst src) s = alu32X .base32 aluOr dst src s := rfl

theorem exec_or64K : exec (.or64K dst imm) s = alu64K .base64 aluOr dst imm s := rfl

theorem exec_or64X : exec (.or64X dst src) s = alu64X .base64 aluOr dst src s := rfl

theorem exec_and32K : exec (.and32K dst imm) s = alu32K .base32 aluAnd dst imm s := rfl

theorem exec_and32X : exec (.and32X dst src) s = alu32X .base32 aluAnd dst src s := rfl

theorem exec_and64K : exec (.and64K dst imm) s = alu64K .base64 aluAnd dst imm s := rfl

theorem exec_and64X : exec (.and64X dst src) s = alu64X .base64 aluAnd dst src s := rfl

theorem exec_lsh32K : exec (.lsh32K dst imm) s = alu32K .base32 aluLsh dst imm s := rfl

theorem exec_lsh32X : exec (.lsh32X dst src) s = alu32X .base32 aluLsh dst src s := rfl

theorem exec_lsh64K : exec (.lsh64K dst imm) s = alu64K .base64 aluLsh dst imm s := rfl

theorem exec_lsh64X : exec (.lsh64X dst src) s = alu64X .base64 aluLsh dst src s := rfl

theorem exec_rsh32K : exec (.rsh32K dst imm) s = alu32K .base32 aluRsh dst imm s := rfl

theorem exec_rsh32X : exec (.rsh32X dst src) s = alu32X .base32 aluRsh dst src s := rfl

theorem exec_rsh64K : exec (.rsh64K dst imm) s = alu64K .base64 aluRsh dst imm s := rfl

theorem exec_rsh64X : exec (.rsh64X dst src) s = alu64X .base64 aluRsh dst src s := rfl

theorem exec_neg32 : exec (.neg32 dst) s = unary .base32 (fun a => zext32 (aluNeg (lo32 a))) dst s := rfl

theorem exec_neg64 : exec (.neg64 dst) s = unary .base64 aluNeg dst s := rfl

theorem exec_mod32K : exec (.mod32K dst imm) s = alu32K .divmul32 aluMod dst imm s := rfl

theorem exec_mod32X : exec (.mod32X dst src) s = alu32X .divmul32 aluMod dst src s := rfl

theorem exec_mod64K : exec (.mod64K dst imm) s = alu64K .divmul64 aluMod dst imm s := rfl

theorem exec_mod64X : exec (.mod64X dst src) s = alu64X .divmul64 aluMod dst src s := rfl

theorem exec_smod32K : exec (.smod32K dst imm) s = alu32K .divmul32 aluSmod dst imm s := rfl

theorem exec_smod32X : exec (.smod32X dst src) s = alu32X .divmul32 aluSmod dst src s := rfl

theorem exec_smod64K : exec (.smod64K dst imm) s = alu64K .divmul64 aluSmod dst imm s := rfl

theorem exec_smod64X : exec (.smod64X dst src) s = alu64X .divmul64 aluSmod dst src s := rfl

theorem exec_xor32K : exec (.xor32K dst imm) s = alu32K .base32 aluXor dst imm s := rfl

theorem exec_xor32X : exec (.xor32X dst src) s = alu32X .base32 aluXor dst src s := rfl

theorem exec_xor64K : exec (.xor64K dst imm) s = alu64K .base64 aluXor dst imm s := rfl

theorem exec_xor64X : exec (.xor64X dst src) s = alu64X .base64 aluXor dst src s := rfl

theorem exec_mov32K : exec (.mov32K dst imm) s = moveK .base32 (zext32 imm) dst s := rfl

theorem exec_mov32X : exec (.mov32X dst src) s = moveX .base32 (fun b => zext32 (lo32 b)) dst src s := rfl

theorem exec_mov64K : exec (.mov64K dst imm) s = moveK .base64 (sextImm imm) dst s := rfl

theorem exec_mov64X : exec (.mov64X dst src) s = moveX .base64 (fun b => b) dst src s := rfl

theorem exec_movsx32_8 : exec (.movsx32_8 dst src) s =
    moveX .base32 (fun b => zext32 (signExtendLow 8 (lo32 b))) dst src s := rfl

theorem exec_movsx32_16 : exec (.movsx32_16 dst src) s =
    moveX .base32 (fun b => zext32 (signExtendLow 16 (lo32 b))) dst src s := rfl

theorem exec_movsx64_8 : exec (.movsx64_8 dst src) s = moveX .base64 (signExtendLow 8) dst src s := rfl

theorem exec_movsx64_16 : exec (.movsx64_16 dst src) s = moveX .base64 (signExtendLow 16) dst src s := rfl

theorem exec_movsx64_32 : exec (.movsx64_32 dst src) s = moveX .base64 (signExtendLow 32) dst src s := rfl

theorem exec_arsh32K : exec (.arsh32K dst imm) s = alu32K .base32 aluArsh dst imm s := rfl

theorem exec_arsh32X : exec (.arsh32X dst src) s = alu32X .base32 aluArsh dst src s := rfl

theorem exec_arsh64K : exec (.arsh64K dst imm) s = alu64K .base64 aluArsh dst imm s := rfl

theorem exec_arsh64X : exec (.arsh64X dst src) s = alu64X .base64 aluArsh dst src s := rfl

theorem exec_le16 : exec (.le16 dst) s =
    unary .base32 (fun a => (convert s.params.endian .little swap16 (a.setWidth 16)).setWidth 64) dst s := rfl

theorem exec_le32 : exec (.le32 dst) s =
    unary .base32 (fun a => (convert s.params.endian .little swap32 (a.setWidth 32)).setWidth 64) dst s := rfl

theorem exec_le64 : exec (.le64 dst) s = unary .base64 (convert s.params.endian .little swap64) dst s := rfl

theorem exec_be16 : exec (.be16 dst) s =
    unary .base32 (fun a => (convert s.params.endian .big swap16 (a.setWidth 16)).setWidth 64) dst s := rfl

theorem exec_be32 : exec (.be32 dst) s =
    unary .base32 (fun a => (convert s.params.endian .big swap32 (a.setWidth 32)).setWidth 64) dst s := rfl

theorem exec_be64 : exec (.be64 dst) s = unary .base64 (convert s.params.endian .big swap64) dst s := rfl

theorem exec_bswap16 : exec (.bswap16 dst) s =
    unary .base32 (fun a => (swap16 (a.setWidth 16)).setWidth 64) dst s := rfl

theorem exec_bswap32 : exec (.bswap32 dst) s =
    unary .base32 (fun a => (swap32 (a.setWidth 32)).setWidth 64) dst s := rfl

theorem exec_bswap64 : exec (.bswap64 dst) s = unary .base64 swap64 dst s := rfl

theorem exec_jeq64K : exec (.jeq64K dst off imm) s = jump64K condEq dst off imm s := rfl

theorem exec_jeq64X : exec (.jeq64X dst src off) s = jump64X condEq dst src off s := rfl

theorem exec_jeq32K : exec (.jeq32K dst off imm) s = jump32K condEq dst off imm s := rfl

theorem exec_jeq32X : exec (.jeq32X dst src off) s = jump32X condEq dst src off s := rfl

theorem exec_jgt64K : exec (.jgt64K dst off imm) s = jump64K condGt dst off imm s := rfl

theorem exec_jgt64X : exec (.jgt64X dst src off) s = jump64X condGt dst src off s := rfl

theorem exec_jgt32K : exec (.jgt32K dst off imm) s = jump32K condGt dst off imm s := rfl

theorem exec_jgt32X : exec (.jgt32X dst src off) s = jump32X condGt dst src off s := rfl

theorem exec_jge64K : exec (.jge64K dst off imm) s = jump64K condGe dst off imm s := rfl

theorem exec_jge64X : exec (.jge64X dst src off) s = jump64X condGe dst src off s := rfl

theorem exec_jge32K : exec (.jge32K dst off imm) s = jump32K condGe dst off imm s := rfl

theorem exec_jge32X : exec (.jge32X dst src off) s = jump32X condGe dst src off s := rfl

theorem exec_jset64K : exec (.jset64K dst off imm) s = jump64K condSet dst off imm s := rfl

theorem exec_jset64X : exec (.jset64X dst src off) s = jump64X condSet dst src off s := rfl

theorem exec_jset32K : exec (.jset32K dst off imm) s = jump32K condSet dst off imm s := rfl

theorem exec_jset32X : exec (.jset32X dst src off) s = jump32X condSet dst src off s := rfl

theorem exec_jne64K : exec (.jne64K dst off imm) s = jump64K condNe dst off imm s := rfl

theorem exec_jne64X : exec (.jne64X dst src off) s = jump64X condNe dst src off s := rfl

theorem exec_jne32K : exec (.jne32K dst off imm) s = jump32K condNe dst off imm s := rfl

theorem exec_jne32X : exec (.jne32X dst src off) s = jump32X condNe dst src off s := rfl

theorem exec_jsgt64K : exec (.jsgt64K dst off imm) s = jump64K condSgt dst off imm s := rfl

theorem exec_jsgt64X : exec (.jsgt64X dst src off) s = jump64X condSgt dst src off s := rfl

theorem exec_jsgt32K : exec (.jsgt32K dst off imm) s = jump32K condSgt dst off imm s := rfl

theorem exec_jsgt32X : exec (.jsgt32X dst src off) s = jump32X condSgt dst src off s := rfl

theorem exec_jsge64K : exec (.jsge64K dst off imm) s = jump64K condSge dst off imm s := rfl

theorem exec_jsge64X : exec (.jsge64X dst src off) s = jump64X condSge dst src off s := rfl

theorem exec_jsge32K : exec (.jsge32K dst off imm) s = jump32K condSge dst off imm s := rfl

theorem exec_jsge32X : exec (.jsge32X dst src off) s = jump32X condSge dst src off s := rfl

theorem exec_jlt64K : exec (.jlt64K dst off imm) s = jump64K condLt dst off imm s := rfl

theorem exec_jlt64X : exec (.jlt64X dst src off) s = jump64X condLt dst src off s := rfl

theorem exec_jlt32K : exec (.jlt32K dst off imm) s = jump32K condLt dst off imm s := rfl

theorem exec_jlt32X : exec (.jlt32X dst src off) s = jump32X condLt dst src off s := rfl

theorem exec_jle64K : exec (.jle64K dst off imm) s = jump64K condLe dst off imm s := rfl

theorem exec_jle64X : exec (.jle64X dst src off) s = jump64X condLe dst src off s := rfl

theorem exec_jle32K : exec (.jle32K dst off imm) s = jump32K condLe dst off imm s := rfl

theorem exec_jle32X : exec (.jle32X dst src off) s = jump32X condLe dst src off s := rfl

theorem exec_jslt64K : exec (.jslt64K dst off imm) s = jump64K condSlt dst off imm s := rfl

theorem exec_jslt64X : exec (.jslt64X dst src off) s = jump64X condSlt dst src off s := rfl

theorem exec_jslt32K : exec (.jslt32K dst off imm) s = jump32K condSlt dst off imm s := rfl

theorem exec_jslt32X : exec (.jslt32X dst src off) s = jump32X condSlt dst src off s := rfl

theorem exec_jsle64K : exec (.jsle64K dst off imm) s = jump64K condSle dst off imm s := rfl

theorem exec_jsle64X : exec (.jsle64X dst src off) s = jump64X condSle dst src off s := rfl

theorem exec_jsle32K : exec (.jsle32K dst off imm) s = jump32K condSle dst off imm s := rfl

theorem exec_jsle32X : exec (.jsle32X dst src off) s = jump32X condSle dst src off s := rfl

theorem exec_ja : exec (.ja off) s = issue .base32 [] s (branch true off s) := rfl

theorem exec_ja32 : exec (.ja32 imm) s = issue .base32 [] s (.next (s.jump (target s.pc imm.toInt))) := rfl

theorem exec_callHelper : exec (.callHelper imm) s =
    issue .base32 [] s (platformCall (.helper .staticId imm) s) := rfl

theorem exec_callLocal : exec (.callLocal imm) s =
    issue .base32 [] s (if atMaxDepth s then raise (.callDepthExceeded s.pc) s
        else .next { s with calls := s.calls ++ [s.pc + 1], pc := target s.pc imm.toInt }) := rfl

theorem exec_callBtf : exec (.callBtf imm) s = issue .base32 [] s (platformCall (.helper .btfId imm) s) := rfl

theorem exec_exit : exec (.exit) s =
    issue .base32 [] s (match s.calls.getLast? with
        | none => .next { s with status := .exited (s.reg 0) }
        | some t => .next { s with calls := s.calls.dropLast, pc := t }) := rfl

theorem exec_ldxW : exec (.ldxW dst src off) s = load .base32 4 (fun v => v) dst src off s := rfl

theorem exec_ldxH : exec (.ldxH dst src off) s = load .base32 2 (fun v => v) dst src off s := rfl

theorem exec_ldxB : exec (.ldxB dst src off) s = load .base32 1 (fun v => v) dst src off s := rfl

theorem exec_ldxDw : exec (.ldxDw dst src off) s = load .base64 8 (fun v => v) dst src off s := rfl

theorem exec_stW : exec (.stW dst off imm) s = storeImm .base32 4 dst off imm s := rfl

theorem exec_stH : exec (.stH dst off imm) s = storeImm .base32 2 dst off imm s := rfl

theorem exec_stB : exec (.stB dst off imm) s = storeImm .base32 1 dst off imm s := rfl

theorem exec_stDw : exec (.stDw dst off imm) s = storeImm .base64 8 dst off imm s := rfl

theorem exec_stxW : exec (.stxW dst src off) s = storeReg .base32 4 dst src off s := rfl

theorem exec_stxH : exec (.stxH dst src off) s = storeReg .base32 2 dst src off s := rfl

theorem exec_stxB : exec (.stxB dst src off) s = storeReg .base32 1 dst src off s := rfl

theorem exec_stxDw : exec (.stxDw dst src off) s = storeReg .base64 8 dst src off s := rfl

theorem exec_ldxsW : exec (.ldxsW dst src off) s = load .base32 4 (sextBytes 4) dst src off s := rfl

theorem exec_ldxsH : exec (.ldxsH dst src off) s = load .base32 2 (sextBytes 2) dst src off s := rfl

theorem exec_ldxsB : exec (.ldxsB dst src off) s = load .base32 1 (sextBytes 1) dst src off s := rfl

theorem exec_atomicAdd32 : exec (.atomicAdd32 dst src off) s =
    atomicSimple .atomic32 4 (at32 aluAdd) dst src off s := rfl

theorem exec_atomicFetchAdd32 : exec (.atomicFetchAdd32 dst src off) s =
    atomicFetch .atomic32 4 (at32 aluAdd) dst src off s := rfl

theorem exec_atomicOr32 : exec (.atomicOr32 dst src off) s =
    atomicSimple .atomic32 4 (at32 aluOr) dst src off s := rfl

theorem exec_atomicFetchOr32 : exec (.atomicFetchOr32 dst src off) s =
    atomicFetch .atomic32 4 (at32 aluOr) dst src off s := rfl

theorem exec_atomicAnd32 : exec (.atomicAnd32 dst src off) s =
    atomicSimple .atomic32 4 (at32 aluAnd) dst src off s := rfl

theorem exec_atomicFetchAnd32 : exec (.atomicFetchAnd32 dst src off) s =
    atomicFetch .atomic32 4 (at32 aluAnd) dst src off s := rfl

theorem exec_atomicXor32 : exec (.atomicXor32 dst src off) s =
    atomicSimple .atomic32 4 (at32 aluXor) dst src off s := rfl

theorem exec_atomicFetchXor32 : exec (.atomicFetchXor32 dst src off) s =
    atomicFetch .atomic32 4 (at32 aluXor) dst src off s := rfl

theorem exec_atomicXchg32 : exec (.atomicXchg32 dst src off) s =
    atomicFetch .atomic32 4 (at32 fun _ v => v) dst src off s := rfl

theorem exec_atomicCmpxchg32 : exec (.atomicCmpxchg32 dst src off) s =
    atomicCmpxchg .atomic32 4 (fun old c => lo32 old == lo32 c) dst src off s := rfl

theorem exec_atomicAdd64 : exec (.atomicAdd64 dst src off) s = atomicSimple .atomic64 8 aluAdd dst src off s := rfl

theorem exec_atomicFetchAdd64 : exec (.atomicFetchAdd64 dst src off) s =
    atomicFetch .atomic64 8 aluAdd dst src off s := rfl

theorem exec_atomicOr64 : exec (.atomicOr64 dst src off) s = atomicSimple .atomic64 8 aluOr dst src off s := rfl

theorem exec_atomicFetchOr64 : exec (.atomicFetchOr64 dst src off) s =
    atomicFetch .atomic64 8 aluOr dst src off s := rfl

theorem exec_atomicAnd64 : exec (.atomicAnd64 dst src off) s = atomicSimple .atomic64 8 aluAnd dst src off s := rfl

theorem exec_atomicFetchAnd64 : exec (.atomicFetchAnd64 dst src off) s =
    atomicFetch .atomic64 8 aluAnd dst src off s := rfl

theorem exec_atomicXor64 : exec (.atomicXor64 dst src off) s = atomicSimple .atomic64 8 aluXor dst src off s := rfl

theorem exec_atomicFetchXor64 : exec (.atomicFetchXor64 dst src off) s =
    atomicFetch .atomic64 8 aluXor dst src off s := rfl

theorem exec_atomicXchg64 : exec (.atomicXchg64 dst src off) s =
    atomicFetch .atomic64 8 (fun _ v => v) dst src off s := rfl

theorem exec_atomicCmpxchg64 : exec (.atomicCmpxchg64 dst src off) s =
    atomicCmpxchg .atomic64 8 (fun old c => old == c) dst src off s := rfl

theorem exec_lddw : exec (.lddw dst imm nextImm) s =
    issue .base64 [dst] s (finishWide dst (imm64 imm nextImm) s) := rfl

theorem exec_ldMapFd : exec (.ldMapFd dst imm) s =
    wideLookup (s.params.mapByFd.lookup imm) (.mapByFd imm) dst s := rfl

theorem exec_ldMapValFd : exec (.ldMapValFd dst imm nextImm) s =
    wideMapVal (s.params.mapByFd.lookup imm) (.mapByFd imm) dst nextImm s := rfl

theorem exec_ldVarAddr : exec (.ldVarAddr dst imm) s =
    wideLookup (s.params.varAddr.lookup imm) (.varAddr imm) dst s := rfl

theorem exec_ldCodeAddr : exec (.ldCodeAddr dst imm) s =
    wideLookup (s.params.codeAddr.lookup (s.pc, imm)) (.codeAddr s.pc imm) dst s := rfl

theorem exec_ldMapIdx : exec (.ldMapIdx dst imm) s =
    wideLookup (s.params.mapByIdx.lookup imm) (.mapByIdx imm) dst s := rfl

theorem exec_ldMapValIdx : exec (.ldMapValIdx dst imm nextImm) s =
    wideMapVal (s.params.mapByIdx.lookup imm) (.mapByIdx imm) dst nextImm s := rfl

theorem exec_imm64Hi : exec (.imm64Hi nextImm) s = raise (.illegalInstruction s.pc) s := rfl

theorem exec_ldAbsW : exec (.ldAbsW imm) s = issue .packet [] s (platformCall (.packet .abs .w 0 imm) s) := rfl

theorem exec_ldAbsH : exec (.ldAbsH imm) s = issue .packet [] s (platformCall (.packet .abs .h 0 imm) s) := rfl

theorem exec_ldAbsB : exec (.ldAbsB imm) s = issue .packet [] s (platformCall (.packet .abs .b 0 imm) s) := rfl

theorem exec_ldIndW : exec (.ldIndW src imm) s =
    issue .packet [src] s (platformCall (.packet .ind .w src imm) s) := rfl

theorem exec_ldIndH : exec (.ldIndH src imm) s =
    issue .packet [src] s (platformCall (.packet .ind .h src imm) s) := rfl

theorem exec_ldIndB : exec (.ldIndB src imm) s =
    issue .packet [src] s (platformCall (.packet .ind .b src imm) s) := rfl

end Sys2Proof.Machine
end

