-- ==== Sys2Proof/Laws/Forms.lean ====
section
/-! SUPPORT. For each operand form, everything it can do; and, from these, everything an instruction can do
(`answers_exec`), said once. Then what each form does when its operands are readable. -/

namespace Sys2Proof.Machine

/-! ## Everything a form can do -/

section
variable {g : Group} {dst src : RegNum} {off : Offset} {imm : Imm} {s : State} {P : State → Prop}

theorem answers_alu32K {op : BitVec 32 → BitVec 32 → BitVec 32} (hf : ∀ k, P (s.fault k))
    (hb : ∀ v, isReg dst = true → P ((s.setReg dst v).advance 1)) : Answers (alu32K g op dst imm s) P :=
  answers_issue hf fun hr _ => answers_withReg hf fun _ _ => answers_next.mpr (hb _ (by simpa using hr))

theorem answers_alu32X {op : BitVec 32 → BitVec 32 → BitVec 32} (hf : ∀ k, P (s.fault k))
    (hb : ∀ v, isReg dst = true → P ((s.setReg dst v).advance 1)) : Answers (alu32X g op dst src s) P :=
  answers_issue hf fun hr _ => answers_withReg hf fun _ _ => answers_withReg hf fun _ _ =>
    answers_next.mpr (hb _ (by simp_all))

theorem answers_alu64K {op : Word → Word → Word} (hf : ∀ k, P (s.fault k))
    (hb : ∀ v, isReg dst = true → P ((s.setReg dst v).advance 1)) : Answers (alu64K g op dst imm s) P :=
  answers_issue hf fun hr _ => answers_withReg hf fun _ _ => answers_next.mpr (hb _ (by simpa using hr))

theorem answers_alu64X {op : Word → Word → Word} (hf : ∀ k, P (s.fault k))
    (hb : ∀ v, isReg dst = true → P ((s.setReg dst v).advance 1)) : Answers (alu64X g op dst src s) P :=
  answers_issue hf fun hr _ => answers_withReg hf fun _ _ => answers_withReg hf fun _ _ =>
    answers_next.mpr (hb _ (by simp_all))

theorem answers_unary {op : Word → Word} (hf : ∀ k, P (s.fault k))
    (hb : ∀ v, isReg dst = true → P ((s.setReg dst v).advance 1)) : Answers (unary g op dst s) P :=
  answers_issue hf fun hr _ => answers_withReg hf fun _ _ => answers_next.mpr (hb _ (by simpa using hr))

theorem answers_moveX {op : Word → Word} (hf : ∀ k, P (s.fault k))
    (hb : ∀ v, isReg dst = true → P ((s.setReg dst v).advance 1)) : Answers (moveX g op dst src s) P :=
  answers_issue hf fun hr _ => answers_withReg hf fun _ _ => answers_next.mpr (hb _ (by simp_all))

theorem answers_moveK {v : Word} (hf : ∀ k, P (s.fault k))
    (hb : ∀ v, isReg dst = true → P ((s.setReg dst v).advance 1)) : Answers (moveK g v dst s) P :=
  answers_issue hf fun hr _ => answers_next.mpr (hb _ (by simpa using hr))

theorem answers_branch {taken : Bool} (hj : P (s.jump (target s.pc off.toInt))) (hn : P (s.advance 1)) :
    Answers (branch taken off s) P := by
  cases taken
  · exact answers_next.mpr hn
  · exact answers_next.mpr hj

theorem answers_jump64K {cond : Word → Word → Bool} (hf : ∀ k, P (s.fault k))
    (hj : P (s.jump (target s.pc off.toInt))) (hn : P (s.advance 1)) : Answers (jump64K cond dst off imm s) P :=
  answers_issue hf fun _ _ => answers_withReg hf fun _ _ => answers_branch hj hn

theorem answers_jump64X {cond : Word → Word → Bool} (hf : ∀ k, P (s.fault k))
    (hj : P (s.jump (target s.pc off.toInt))) (hn : P (s.advance 1)) : Answers (jump64X cond dst src off s) P :=
  answers_issue hf fun _ _ => answers_withReg hf fun _ _ => answers_withReg hf fun _ _ => answers_branch hj hn

theorem answers_jump32K {cond : BitVec 32 → BitVec 32 → Bool} (hf : ∀ k, P (s.fault k))
    (hj : P (s.jump (target s.pc off.toInt))) (hn : P (s.advance 1)) : Answers (jump32K cond dst off imm s) P :=
  answers_issue hf fun _ _ => answers_withReg hf fun _ _ => answers_branch hj hn

theorem answers_jump32X {cond : BitVec 32 → BitVec 32 → Bool} (hf : ∀ k, P (s.fault k))
    (hj : P (s.jump (target s.pc off.toInt))) (hn : P (s.advance 1)) : Answers (jump32X cond dst src off s) P :=
  answers_issue hf fun _ _ => answers_withReg hf fun _ _ => answers_withReg hf fun _ _ => answers_branch hj hn

theorem answers_load {n : Nat} {ext : Word → Word} (hf : ∀ k, P (s.fault k))
    (hb : ∀ v, isReg dst = true → P ((s.setReg dst v).advance 1))
    (ht : ∀ v a, isReg dst = true → P (((readTorn n a s).2.setReg dst v).advance 1)) :
    Answers (load g n ext dst src off s) P :=
  answers_issue hf fun hr _ => answers_withReg hf fun _ _ => answers_memRead hf
    (fun _ _ => answers_next.mpr (hb _ (by simp_all))) (fun _ _ => answers_next.mpr (ht _ _ (by simp_all)))

theorem answers_storeImm {n : Nat} (hf : ∀ k, P (s.fault k))
    (hb : ∀ (a : Word) v, a.toNat + n ≤ 2 ^ 64 → P ((storeAt a n v s).advance 1))
    (ht : ∀ a bs, a + bs.length ≤ 2 ^ 64 → P ((writeTorn bs a s).advance 1)) :
    Answers (storeImm g n dst off imm s) P :=
  answers_issue hf fun _ _ => answers_withReg hf fun _ _ => answers_memWrite hf
    (fun ha _ => answers_next.mpr (hb _ _ (accessible_le ha)))
    (fun ha _ => answers_next.mpr (ht _ _ (by simpa using accessible_le ha)))

theorem answers_storeReg {n : Nat} (hf : ∀ k, P (s.fault k))
    (hb : ∀ (a : Word) v, a.toNat + n ≤ 2 ^ 64 → P ((storeAt a n v s).advance 1))
    (ht : ∀ a bs, a + bs.length ≤ 2 ^ 64 → P ((writeTorn bs a s).advance 1)) :
    Answers (storeReg g n dst src off s) P :=
  answers_issue hf fun _ _ => answers_withReg hf fun _ _ => answers_withReg hf fun _ _ => answers_memWrite hf
    (fun ha _ => answers_next.mpr (hb _ _ (accessible_le ha)))
    (fun ha _ => answers_next.mpr (ht _ _ (by simpa using accessible_le ha)))

theorem answers_atomicSimple {n : Nat} {op : Word → Word → Word} (hf : ∀ k, P (s.fault k))
    (hb : ∀ (a : Word) v, a.toNat + n ≤ 2 ^ 64 → P ((storeAt a n v s).advance 1)) :
    Answers (atomicSimple g n op dst src off s) P :=
  answers_issue hf fun _ _ => answers_withReg hf fun _ _ => answers_withReg hf fun _ _ => answers_atomicRmw hf
    (fun _ _ ha _ _ => answers_next.mpr (hb _ _ (accessible_le ha))) (fun _ _ _ h => by cases h)

theorem answers_atomicFetch {n : Nat} {op : Word → Word → Word} (hf : ∀ k, P (s.fault k))
    (hb : ∀ (a : Word) v w, isReg src = true → a.toNat + n ≤ 2 ^ 64 →
      P (((storeAt a n v s).setReg src w).advance 1)) :
    Answers (atomicFetch g n op dst src off s) P :=
  answers_issue hf fun hr _ => answers_withReg hf fun _ _ => answers_withReg hf fun _ _ => answers_atomicRmw hf
    (fun _ _ ha _ _ => answers_next.mpr (hb _ _ _ (by simp_all) (accessible_le ha))) (fun _ _ _ h => by cases h)

theorem answers_atomicCmpxchg {n : Nat} {same : Word → Word → Bool} (hf : ∀ k, P (s.fault k))
    (hb : ∀ (a : Word) v w, a.toNat + n ≤ 2 ^ 64 → P (((storeAt a n v s).setReg 0 w).advance 1))
    (hn : ∀ w, P ((s.setReg 0 w).advance 1)) :
    Answers (atomicCmpxchg g n same dst src off s) P :=
  answers_issue hf fun _ _ => answers_withReg hf fun _ _ => answers_withReg hf fun _ _ => answers_withReg hf fun _ _ =>
    answers_atomicRmw hf (fun _ _ ha _ _ => answers_next.mpr (hb _ _ _ (accessible_le ha)))
      (fun _ _ _ _ => answers_next.mpr (hn _))

theorem answers_wideLookup {found : Option Word} {q : PlatformQuery} (hf : ∀ k, P (s.fault k))
    (hb : ∀ v, isReg dst = true → P ((s.setReg dst v).advance 2)) : Answers (wideLookup found q dst s) P :=
  answers_issue hf fun hr _ => answers_withLookup hf fun _ _ => answers_next.mpr (hb _ (by simpa using hr))

theorem answers_wideMapVal {found : Option Word} {q : PlatformQuery} {nextImm : Imm} (hf : ∀ k, P (s.fault k))
    (hb : ∀ v, isReg dst = true → P ((s.setReg dst v).advance 2)) : Answers (wideMapVal found q dst nextImm s) P :=
  answers_issue hf fun hr _ => answers_withLookup hf fun _ _ => answers_withLookup hf fun _ _ =>
    answers_next.mpr (hb _ (by simpa using hr))

theorem answers_issue_platformCall {regs : List RegNum} {fn : PlatformFn} (hf : ∀ k, P (s.fault k))
    (hb : ∀ rs bs, P ((applyAnswer rs bs s).advance 1)) :
    Answers (issue g regs s (platformCall fn s)) P :=
  answers_issue hf fun _ _ => answers_platformCall hf fun rs bs _ => hb rs bs

end

/-! ## Everything an instruction can do -/

/-- Every instruction answers a next state, and these are the next states there are. -/
theorem answers_exec (i : Instr) {s : State} {P : State → Prop}
    (faults : ∀ k, P (s.fault k))
    (sets : ∀ dst v n, i.writes = [dst] → isReg dst = true → n = 1 ∨ n = 2 → P ((s.setReg dst v).advance n))
    (goesOn : P (s.advance 1))
    (jumps : ∀ d, i.displacement = some d → P (s.jump (target s.pc d)))
    (calls : ∀ imm, i = .callLocal imm → atMaxDepth s = false →
      P { s with calls := s.calls ++ [s.pc + 1], pc := target s.pc imm.toInt })
    (exits : i = .exit → s.calls.getLast? = none → P { s with status := .exited (s.reg 0) })
    (returns : ∀ t, i = .exit → s.calls.getLast? = some t → P { s with calls := s.calls.dropLast, pc := t })
    (answered : ∀ regs bytes, i.asksPlatform = true → P ((applyAnswer regs bytes s).advance 1))
    (loadsTorn : ∀ dst v n a, i.writes = [dst] → isReg dst = true →
      P (((readTorn n a s).2.setReg dst v).advance 1))
    (stores : ∀ (a : Word) n v, i.stores = true → a.toNat + n ≤ 2 ^ 64 → P ((storeAt a n v s).advance 1))
    (storesTorn : ∀ bs a, i.stores = true → a + bs.length ≤ 2 ^ 64 → P ((writeTorn bs a s).advance 1))
    (fetches : ∀ (a : Word) n v dst w, i.stores = true → i.writes = [dst] → isReg dst = true →
      a.toNat + n ≤ 2 ^ 64 → P (((storeAt a n v s).setReg dst w).advance 1)) :
    Answers (exec i s) P := by
  have one : ∀ dst, i.writes = [dst] → ∀ v, isReg dst = true → P ((s.setReg dst v).advance 1) :=
    fun dst h v hr => sets dst v 1 h hr (.inl rfl)
  have two : ∀ dst, i.writes = [dst] → ∀ v, isReg dst = true → P ((s.setReg dst v).advance 2) :=
    fun dst h v hr => sets dst v 2 h hr (.inr rfl)
  cases i
  case callLocal imm =>
    show Answers (execCallLocal imm s) P
    exact answers_issue faults fun _ _ => by
      split
      · exact answers_raise.mpr (faults _)
      · rename_i h; exact answers_next.mpr (calls imm rfl (by simpa using h))
  case exit =>
    show Answers (execExit s) P
    exact answers_issue faults fun _ _ => by
      split
      · rename_i h; exact answers_next.mpr (exits rfl h)
      · rename_i t h; exact answers_next.mpr (returns t rfl h)
  case ja off =>
    show Answers (execJa off s) P
    exact answers_issue faults fun _ _ => answers_branch (jumps _ rfl) goesOn
  case ja32 imm =>
    show Answers (execJa32 imm s) P
    exact answers_issue faults fun _ _ => answers_next.mpr (jumps _ rfl)
  case imm64Hi imm => exact answers_raise.mpr (faults _)
  case lddw dst imm nextImm =>
    show Answers (execLddw dst imm nextImm s) P
    exact answers_issue faults fun hr _ => answers_next.mpr (two _ rfl _ (by simpa using hr))
  case add32K => rw [exec_add32K]; exact answers_alu32K faults (one _ rfl)
  case add32X => rw [exec_add32X]; exact answers_alu32X faults (one _ rfl)
  case add64K => rw [exec_add64K]; exact answers_alu64K faults (one _ rfl)
  case add64X => rw [exec_add64X]; exact answers_alu64X faults (one _ rfl)
  case sub32K => rw [exec_sub32K]; exact answers_alu32K faults (one _ rfl)
  case sub32X => rw [exec_sub32X]; exact answers_alu32X faults (one _ rfl)
  case sub64K => rw [exec_sub64K]; exact answers_alu64K faults (one _ rfl)
  case sub64X => rw [exec_sub64X]; exact answers_alu64X faults (one _ rfl)
  case mul32K => rw [exec_mul32K]; exact answers_alu32K faults (one _ rfl)
  case mul32X => rw [exec_mul32X]; exact answers_alu32X faults (one _ rfl)
  case mul64K => rw [exec_mul64K]; exact answers_alu64K faults (one _ rfl)
  case mul64X => rw [exec_mul64X]; exact answers_alu64X faults (one _ rfl)
  case div32K => rw [exec_div32K]; exact answers_alu32K faults (one _ rfl)
  case div32X => rw [exec_div32X]; exact answers_alu32X faults (one _ rfl)
  case div64K => rw [exec_div64K]; exact answers_alu64K faults (one _ rfl)
  case div64X => rw [exec_div64X]; exact answers_alu64X faults (one _ rfl)
  case sdiv32K => rw [exec_sdiv32K]; exact answers_alu32K faults (one _ rfl)
  case sdiv32X => rw [exec_sdiv32X]; exact answers_alu32X faults (one _ rfl)
  case sdiv64K => rw [exec_sdiv64K]; exact answers_alu64K faults (one _ rfl)
  case sdiv64X => rw [exec_sdiv64X]; exact answers_alu64X faults (one _ rfl)
  case or32K => rw [exec_or32K]; exact answers_alu32K faults (one _ rfl)
  case or32X => rw [exec_or32X]; exact answers_alu32X faults (one _ rfl)
  case or64K => rw [exec_or64K]; exact answers_alu64K faults (one _ rfl)
  case or64X => rw [exec_or64X]; exact answers_alu64X faults (one _ rfl)
  case and32K => rw [exec_and32K]; exact answers_alu32K faults (one _ rfl)
  case and32X => rw [exec_and32X]; exact answers_alu32X faults (one _ rfl)
  case and64K => rw [exec_and64K]; exact answers_alu64K faults (one _ rfl)
  case and64X => rw [exec_and64X]; exact answers_alu64X faults (one _ rfl)
  case lsh32K => rw [exec_lsh32K]; exact answers_alu32K faults (one _ rfl)
  case lsh32X => rw [exec_lsh32X]; exact answers_alu32X faults (one _ rfl)
  case lsh64K => rw [exec_lsh64K]; exact answers_alu64K faults (one _ rfl)
  case lsh64X => rw [exec_lsh64X]; exact answers_alu64X faults (one _ rfl)
  case rsh32K => rw [exec_rsh32K]; exact answers_alu32K faults (one _ rfl)
  case rsh32X => rw [exec_rsh32X]; exact answers_alu32X faults (one _ rfl)
  case rsh64K => rw [exec_rsh64K]; exact answers_alu64K faults (one _ rfl)
  case rsh64X => rw [exec_rsh64X]; exact answers_alu64X faults (one _ rfl)
  case neg32 => rw [exec_neg32]; exact answers_unary faults (one _ rfl)
  case neg64 => rw [exec_neg64]; exact answers_unary faults (one _ rfl)
  case mod32K => rw [exec_mod32K]; exact answers_alu32K faults (one _ rfl)
  case mod32X => rw [exec_mod32X]; exact answers_alu32X faults (one _ rfl)
  case mod64K => rw [exec_mod64K]; exact answers_alu64K faults (one _ rfl)
  case mod64X => rw [exec_mod64X]; exact answers_alu64X faults (one _ rfl)
  case smod32K => rw [exec_smod32K]; exact answers_alu32K faults (one _ rfl)
  case smod32X => rw [exec_smod32X]; exact answers_alu32X faults (one _ rfl)
  case smod64K => rw [exec_smod64K]; exact answers_alu64K faults (one _ rfl)
  case smod64X => rw [exec_smod64X]; exact answers_alu64X faults (one _ rfl)
  case xor32K => rw [exec_xor32K]; exact answers_alu32K faults (one _ rfl)
  case xor32X => rw [exec_xor32X]; exact answers_alu32X faults (one _ rfl)
  case xor64K => rw [exec_xor64K]; exact answers_alu64K faults (one _ rfl)
  case xor64X => rw [exec_xor64X]; exact answers_alu64X faults (one _ rfl)
  case mov32K => rw [exec_mov32K]; exact answers_moveK faults (one _ rfl)
  case mov32X => rw [exec_mov32X]; exact answers_moveX faults (one _ rfl)
  case mov64K => rw [exec_mov64K]; exact answers_moveK faults (one _ rfl)
  case mov64X => rw [exec_mov64X]; exact answers_moveX faults (one _ rfl)
  case movsx32_8 => rw [exec_movsx32_8]; exact answers_moveX faults (one _ rfl)
  case movsx32_16 => rw [exec_movsx32_16]; exact answers_moveX faults (one _ rfl)
  case movsx64_8 => rw [exec_movsx64_8]; exact answers_moveX faults (one _ rfl)
  case movsx64_16 => rw [exec_movsx64_16]; exact answers_moveX faults (one _ rfl)
  case movsx64_32 => rw [exec_movsx64_32]; exact answers_moveX faults (one _ rfl)
  case arsh32K => rw [exec_arsh32K]; exact answers_alu32K faults (one _ rfl)
  case arsh32X => rw [exec_arsh32X]; exact answers_alu32X faults (one _ rfl)
  case arsh64K => rw [exec_arsh64K]; exact answers_alu64K faults (one _ rfl)
  case arsh64X => rw [exec_arsh64X]; exact answers_alu64X faults (one _ rfl)
  case le16 => rw [exec_le16]; exact answers_unary faults (one _ rfl)
  case le32 => rw [exec_le32]; exact answers_unary faults (one _ rfl)
  case le64 => rw [exec_le64]; exact answers_unary faults (one _ rfl)
  case be16 => rw [exec_be16]; exact answers_unary faults (one _ rfl)
  case be32 => rw [exec_be32]; exact answers_unary faults (one _ rfl)
  case be64 => rw [exec_be64]; exact answers_unary faults (one _ rfl)
  case bswap16 => rw [exec_bswap16]; exact answers_unary faults (one _ rfl)
  case bswap32 => rw [exec_bswap32]; exact answers_unary faults (one _ rfl)
  case bswap64 => rw [exec_bswap64]; exact answers_unary faults (one _ rfl)
  case jeq64K => rw [exec_jeq64K]; exact answers_jump64K faults (jumps _ rfl) goesOn
  case jeq64X => rw [exec_jeq64X]; exact answers_jump64X faults (jumps _ rfl) goesOn
  case jeq32K => rw [exec_jeq32K]; exact answers_jump32K faults (jumps _ rfl) goesOn
  case jeq32X => rw [exec_jeq32X]; exact answers_jump32X faults (jumps _ rfl) goesOn
  case jgt64K => rw [exec_jgt64K]; exact answers_jump64K faults (jumps _ rfl) goesOn
  case jgt64X => rw [exec_jgt64X]; exact answers_jump64X faults (jumps _ rfl) goesOn
  case jgt32K => rw [exec_jgt32K]; exact answers_jump32K faults (jumps _ rfl) goesOn
  case jgt32X => rw [exec_jgt32X]; exact answers_jump32X faults (jumps _ rfl) goesOn
  case jge64K => rw [exec_jge64K]; exact answers_jump64K faults (jumps _ rfl) goesOn
  case jge64X => rw [exec_jge64X]; exact answers_jump64X faults (jumps _ rfl) goesOn
  case jge32K => rw [exec_jge32K]; exact answers_jump32K faults (jumps _ rfl) goesOn
  case jge32X => rw [exec_jge32X]; exact answers_jump32X faults (jumps _ rfl) goesOn
  case jset64K => rw [exec_jset64K]; exact answers_jump64K faults (jumps _ rfl) goesOn
  case jset64X => rw [exec_jset64X]; exact answers_jump64X faults (jumps _ rfl) goesOn
  case jset32K => rw [exec_jset32K]; exact answers_jump32K faults (jumps _ rfl) goesOn
  case jset32X => rw [exec_jset32X]; exact answers_jump32X faults (jumps _ rfl) goesOn
  case jne64K => rw [exec_jne64K]; exact answers_jump64K faults (jumps _ rfl) goesOn
  case jne64X => rw [exec_jne64X]; exact answers_jump64X faults (jumps _ rfl) goesOn
  case jne32K => rw [exec_jne32K]; exact answers_jump32K faults (jumps _ rfl) goesOn
  case jne32X => rw [exec_jne32X]; exact answers_jump32X faults (jumps _ rfl) goesOn
  case jsgt64K => rw [exec_jsgt64K]; exact answers_jump64K faults (jumps _ rfl) goesOn
  case jsgt64X => rw [exec_jsgt64X]; exact answers_jump64X faults (jumps _ rfl) goesOn
  case jsgt32K => rw [exec_jsgt32K]; exact answers_jump32K faults (jumps _ rfl) goesOn
  case jsgt32X => rw [exec_jsgt32X]; exact answers_jump32X faults (jumps _ rfl) goesOn
  case jsge64K => rw [exec_jsge64K]; exact answers_jump64K faults (jumps _ rfl) goesOn
  case jsge64X => rw [exec_jsge64X]; exact answers_jump64X faults (jumps _ rfl) goesOn
  case jsge32K => rw [exec_jsge32K]; exact answers_jump32K faults (jumps _ rfl) goesOn
  case jsge32X => rw [exec_jsge32X]; exact answers_jump32X faults (jumps _ rfl) goesOn
  case jlt64K => rw [exec_jlt64K]; exact answers_jump64K faults (jumps _ rfl) goesOn
  case jlt64X => rw [exec_jlt64X]; exact answers_jump64X faults (jumps _ rfl) goesOn
  case jlt32K => rw [exec_jlt32K]; exact answers_jump32K faults (jumps _ rfl) goesOn
  case jlt32X => rw [exec_jlt32X]; exact answers_jump32X faults (jumps _ rfl) goesOn
  case jle64K => rw [exec_jle64K]; exact answers_jump64K faults (jumps _ rfl) goesOn
  case jle64X => rw [exec_jle64X]; exact answers_jump64X faults (jumps _ rfl) goesOn
  case jle32K => rw [exec_jle32K]; exact answers_jump32K faults (jumps _ rfl) goesOn
  case jle32X => rw [exec_jle32X]; exact answers_jump32X faults (jumps _ rfl) goesOn
  case jslt64K => rw [exec_jslt64K]; exact answers_jump64K faults (jumps _ rfl) goesOn
  case jslt64X => rw [exec_jslt64X]; exact answers_jump64X faults (jumps _ rfl) goesOn
  case jslt32K => rw [exec_jslt32K]; exact answers_jump32K faults (jumps _ rfl) goesOn
  case jslt32X => rw [exec_jslt32X]; exact answers_jump32X faults (jumps _ rfl) goesOn
  case jsle64K => rw [exec_jsle64K]; exact answers_jump64K faults (jumps _ rfl) goesOn
  case jsle64X => rw [exec_jsle64X]; exact answers_jump64X faults (jumps _ rfl) goesOn
  case jsle32K => rw [exec_jsle32K]; exact answers_jump32K faults (jumps _ rfl) goesOn
  case jsle32X => rw [exec_jsle32X]; exact answers_jump32X faults (jumps _ rfl) goesOn
  case callHelper => rw [exec_callHelper]; exact answers_issue_platformCall faults (fun rs bs => answered rs bs rfl)
  case callBtf => rw [exec_callBtf]; exact answers_issue_platformCall faults (fun rs bs => answered rs bs rfl)
  case ldxW => rw [exec_ldxW]; exact answers_load faults (one _ rfl) (fun v a hr => loadsTorn _ v _ a rfl hr)
  case ldxH => rw [exec_ldxH]; exact answers_load faults (one _ rfl) (fun v a hr => loadsTorn _ v _ a rfl hr)
  case ldxB => rw [exec_ldxB]; exact answers_load faults (one _ rfl) (fun v a hr => loadsTorn _ v _ a rfl hr)
  case ldxDw => rw [exec_ldxDw]; exact answers_load faults (one _ rfl) (fun v a hr => loadsTorn _ v _ a rfl hr)
  case stW =>
    rw [exec_stW]
    exact answers_storeImm faults (fun a v h => stores a _ v rfl h) (fun a bs h => storesTorn bs a rfl h)
  case stH =>
    rw [exec_stH]
    exact answers_storeImm faults (fun a v h => stores a _ v rfl h) (fun a bs h => storesTorn bs a rfl h)
  case stB =>
    rw [exec_stB]
    exact answers_storeImm faults (fun a v h => stores a _ v rfl h) (fun a bs h => storesTorn bs a rfl h)
  case stDw =>
    rw [exec_stDw]
    exact answers_storeImm faults (fun a v h => stores a _ v rfl h) (fun a bs h => storesTorn bs a rfl h)
  case stxW =>
    rw [exec_stxW]
    exact answers_storeReg faults (fun a v h => stores a _ v rfl h) (fun a bs h => storesTorn bs a rfl h)
  case stxH =>
    rw [exec_stxH]
    exact answers_storeReg faults (fun a v h => stores a _ v rfl h) (fun a bs h => storesTorn bs a rfl h)
  case stxB =>
    rw [exec_stxB]
    exact answers_storeReg faults (fun a v h => stores a _ v rfl h) (fun a bs h => storesTorn bs a rfl h)
  case stxDw =>
    rw [exec_stxDw]
    exact answers_storeReg faults (fun a v h => stores a _ v rfl h) (fun a bs h => storesTorn bs a rfl h)
  case ldxsW => rw [exec_ldxsW]; exact answers_load faults (one _ rfl) (fun v a hr => loadsTorn _ v _ a rfl hr)
  case ldxsH => rw [exec_ldxsH]; exact answers_load faults (one _ rfl) (fun v a hr => loadsTorn _ v _ a rfl hr)
  case ldxsB => rw [exec_ldxsB]; exact answers_load faults (one _ rfl) (fun v a hr => loadsTorn _ v _ a rfl hr)
  case atomicAdd32 => rw [exec_atomicAdd32]; exact answers_atomicSimple faults (fun a v h => stores a _ v rfl h)
  case atomicFetchAdd32 =>
    rw [exec_atomicFetchAdd32]
    exact answers_atomicFetch faults (fun a v w hr h => fetches a _ v _ w rfl rfl hr h)
  case atomicOr32 => rw [exec_atomicOr32]; exact answers_atomicSimple faults (fun a v h => stores a _ v rfl h)
  case atomicFetchOr32 =>
    rw [exec_atomicFetchOr32]
    exact answers_atomicFetch faults (fun a v w hr h => fetches a _ v _ w rfl rfl hr h)
  case atomicAnd32 => rw [exec_atomicAnd32]; exact answers_atomicSimple faults (fun a v h => stores a _ v rfl h)
  case atomicFetchAnd32 =>
    rw [exec_atomicFetchAnd32]
    exact answers_atomicFetch faults (fun a v w hr h => fetches a _ v _ w rfl rfl hr h)
  case atomicXor32 => rw [exec_atomicXor32]; exact answers_atomicSimple faults (fun a v h => stores a _ v rfl h)
  case atomicFetchXor32 =>
    rw [exec_atomicFetchXor32]
    exact answers_atomicFetch faults (fun a v w hr h => fetches a _ v _ w rfl rfl hr h)
  case atomicXchg32 =>
    rw [exec_atomicXchg32]
    exact answers_atomicFetch faults (fun a v w hr h => fetches a _ v _ w rfl rfl hr h)
  case atomicCmpxchg32 =>
    rw [exec_atomicCmpxchg32]
    exact answers_atomicCmpxchg faults (fun a v w h => fetches a _ v _ w rfl rfl rfl h) (fun w => one _ rfl w rfl)
  case atomicAdd64 => rw [exec_atomicAdd64]; exact answers_atomicSimple faults (fun a v h => stores a _ v rfl h)
  case atomicFetchAdd64 =>
    rw [exec_atomicFetchAdd64]
    exact answers_atomicFetch faults (fun a v w hr h => fetches a _ v _ w rfl rfl hr h)
  case atomicOr64 => rw [exec_atomicOr64]; exact answers_atomicSimple faults (fun a v h => stores a _ v rfl h)
  case atomicFetchOr64 =>
    rw [exec_atomicFetchOr64]
    exact answers_atomicFetch faults (fun a v w hr h => fetches a _ v _ w rfl rfl hr h)
  case atomicAnd64 => rw [exec_atomicAnd64]; exact answers_atomicSimple faults (fun a v h => stores a _ v rfl h)
  case atomicFetchAnd64 =>
    rw [exec_atomicFetchAnd64]
    exact answers_atomicFetch faults (fun a v w hr h => fetches a _ v _ w rfl rfl hr h)
  case atomicXor64 => rw [exec_atomicXor64]; exact answers_atomicSimple faults (fun a v h => stores a _ v rfl h)
  case atomicFetchXor64 =>
    rw [exec_atomicFetchXor64]
    exact answers_atomicFetch faults (fun a v w hr h => fetches a _ v _ w rfl rfl hr h)
  case atomicXchg64 =>
    rw [exec_atomicXchg64]
    exact answers_atomicFetch faults (fun a v w hr h => fetches a _ v _ w rfl rfl hr h)
  case atomicCmpxchg64 =>
    rw [exec_atomicCmpxchg64]
    exact answers_atomicCmpxchg faults (fun a v w h => fetches a _ v _ w rfl rfl rfl h) (fun w => one _ rfl w rfl)
  case ldMapFd => rw [exec_ldMapFd]; exact answers_wideLookup faults (two _ rfl)
  case ldMapValFd => rw [exec_ldMapValFd]; exact answers_wideMapVal faults (two _ rfl)
  case ldVarAddr => rw [exec_ldVarAddr]; exact answers_wideLookup faults (two _ rfl)
  case ldCodeAddr => rw [exec_ldCodeAddr]; exact answers_wideLookup faults (two _ rfl)
  case ldMapIdx => rw [exec_ldMapIdx]; exact answers_wideLookup faults (two _ rfl)
  case ldMapValIdx => rw [exec_ldMapValIdx]; exact answers_wideMapVal faults (two _ rfl)
  case ldAbsW => rw [exec_ldAbsW]; exact answers_issue_platformCall faults (fun rs bs => answered rs bs rfl)
  case ldAbsH => rw [exec_ldAbsH]; exact answers_issue_platformCall faults (fun rs bs => answered rs bs rfl)
  case ldAbsB => rw [exec_ldAbsB]; exact answers_issue_platformCall faults (fun rs bs => answered rs bs rfl)
  case ldIndW => rw [exec_ldIndW]; exact answers_issue_platformCall faults (fun rs bs => answered rs bs rfl)
  case ldIndH => rw [exec_ldIndH]; exact answers_issue_platformCall faults (fun rs bs => answered rs bs rfl)
  case ldIndB => rw [exec_ldIndB]; exact answers_issue_platformCall faults (fun rs bs => answered rs bs rfl)

end Sys2Proof.Machine
end

