-- ==== Sys2Proof/Laws/Completes.lean ====
section
/-! SUPPORT. What each operand form does when its group is supported and its operands are readable. -/

namespace Sys2Proof.Machine

variable {g : Group} {dst src : RegNum} {off : Offset} {imm : Imm} {s : State} {a b c : Word}

/-- Writing a register and going on changes the register and `pc`, nothing else. -/
theorem setsReg_finish (s : State) {dst : RegNum} (h : isReg dst = true) (v : Word) (n : Int) :
    SetsReg s ((s.setReg dst v).advance n) dst v n :=
  ⟨s.reg_setReg_self v h, fun r _ hr => s.reg_setReg_other v (by simpa using hr), rfl, fun _ => rfl,
    rfl, rfl, rfl, rfl, rfl⟩

/-- `finish` computes. -/
theorem computes_of_finish {i : Instr} {v : Word} (h : exec i s = finish dst v s) (hr : isReg dst = true) :
    Computes i s dst v := ⟨_, h, setsReg_finish s hr v 1⟩

theorem issue_one (body : Result) (hg : supports s.params.groups g = true) (h1 : isReg dst = true) :
    issue g [dst] s body = body := issue_pass body (by simp [h1]) hg

theorem issue_two (body : Result) (hg : supports s.params.groups g = true) (h1 : isReg dst = true)
    (h2 : isReg src = true) : issue g [dst, src] s body = body := issue_pass body (by simp [h1, h2]) hg

theorem alu32K_eq (op : BitVec 32 → BitVec 32 → BitVec 32) (hg : supports s.params.groups g = true)
    (ha : s.reg dst = some a) : alu32K g op dst imm s = finish dst (zext32 (op (lo32 a) imm)) s := by
  rw [alu32K, issue_one _ hg (State.isReg_of_reg ha), withReg_some _ ha]

theorem alu32X_eq (op : BitVec 32 → BitVec 32 → BitVec 32) (hg : supports s.params.groups g = true)
    (ha : s.reg dst = some a) (hb : s.reg src = some b) :
    alu32X g op dst src s = finish dst (zext32 (op (lo32 a) (lo32 b))) s := by
  rw [alu32X, issue_two _ hg (State.isReg_of_reg ha) (State.isReg_of_reg hb), withReg_some _ ha, withReg_some _ hb]

theorem alu64K_eq (op : Word → Word → Word) (hg : supports s.params.groups g = true)
    (ha : s.reg dst = some a) : alu64K g op dst imm s = finish dst (op a (sextImm imm)) s := by
  rw [alu64K, issue_one _ hg (State.isReg_of_reg ha), withReg_some _ ha]

theorem alu64X_eq (op : Word → Word → Word) (hg : supports s.params.groups g = true)
    (ha : s.reg dst = some a) (hb : s.reg src = some b) :
    alu64X g op dst src s = finish dst (op a b) s := by
  rw [alu64X, issue_two _ hg (State.isReg_of_reg ha) (State.isReg_of_reg hb), withReg_some _ ha, withReg_some _ hb]

theorem unary_eq (op : Word → Word) (hg : supports s.params.groups g = true) (ha : s.reg dst = some a) :
    unary g op dst s = finish dst (op a) s := by
  rw [unary, issue_one _ hg (State.isReg_of_reg ha), withReg_some _ ha]

theorem moveX_eq (op : Word → Word) (hg : supports s.params.groups g = true) (hr : isReg dst = true)
    (hb : s.reg src = some b) : moveX g op dst src s = finish dst (op b) s := by
  rw [moveX, issue_two _ hg hr (State.isReg_of_reg hb), withReg_some _ hb]

theorem moveK_eq (v : Word) (hg : supports s.params.groups g = true) (hr : isReg dst = true) :
    moveK g v dst s = finish dst v s := issue_one _ hg hr

theorem jump64K_eq (cond : Word → Word → Bool) (hg : supports s.params.groups .base64 = true)
    (ha : s.reg dst = some a) : jump64K cond dst off imm s = branch (cond a (sextImm imm)) off s := by
  rw [jump64K, issue_one _ hg (State.isReg_of_reg ha), withReg_some _ ha]

theorem jump64X_eq (cond : Word → Word → Bool) (hg : supports s.params.groups .base64 = true)
    (ha : s.reg dst = some a) (hb : s.reg src = some b) : jump64X cond dst src off s = branch (cond a b) off s := by
  rw [jump64X, issue_two _ hg (State.isReg_of_reg ha) (State.isReg_of_reg hb), withReg_some _ ha, withReg_some _ hb]

theorem jump32K_eq (cond : BitVec 32 → BitVec 32 → Bool) (ha : s.reg dst = some a) :
    jump32K cond dst off imm s = branch (cond (lo32 a) imm) off s := by
  rw [jump32K, issue_one _ rfl (State.isReg_of_reg ha), withReg_some _ ha]

theorem jump32X_eq (cond : BitVec 32 → BitVec 32 → Bool) (ha : s.reg dst = some a) (hb : s.reg src = some b) :
    jump32X cond dst src off s = branch (cond (lo32 a) (lo32 b)) off s := by
  rw [jump32X, issue_two _ rfl (State.isReg_of_reg ha) (State.isReg_of_reg hb), withReg_some _ ha, withReg_some _ hb]

/-- A jump writes `pc` and nothing else (43_jump.md R263). -/
theorem branch_eq (taken : Bool) (off : Offset) (s : State) :
    branch taken off s = .next { s with pc := if taken then s.pc + 1 + off.toInt else s.pc + 1 } := by
  cases taken <;> rfl

theorem load_eq (n : Nat) (ext : Word → Word) (hg : supports s.params.groups g = true) (hr : isReg dst = true)
    (hb : s.reg src = some b) : load g n ext dst src off s =
      memRead (effAddr b off) n s fun v s' => finish dst (ext v) s' := by
  rw [load, issue_two _ hg hr (State.isReg_of_reg hb), withReg_some _ hb]

theorem storeImm_eq (n : Nat) (hg : supports s.params.groups g = true) (ha : s.reg dst = some a) :
    storeImm g n dst off imm s = memWrite (effAddr a off) n (sextImm imm) s fun s' => .next (s'.advance 1) := by
  rw [storeImm, issue_one _ hg (State.isReg_of_reg ha), withReg_some _ ha]

theorem storeReg_eq (n : Nat) (hg : supports s.params.groups g = true) (ha : s.reg dst = some a)
    (hb : s.reg src = some b) :
    storeReg g n dst src off s = memWrite (effAddr a off) n b s fun s' => .next (s'.advance 1) := by
  rw [storeReg, issue_two _ hg (State.isReg_of_reg ha) (State.isReg_of_reg hb), withReg_some _ ha, withReg_some _ hb]

theorem atomicSimple_eq (n : Nat) (op : Word → Word → Word) (hg : supports s.params.groups g = true)
    (ha : s.reg dst = some a) (hb : s.reg src = some b) :
    atomicSimple g n op dst src off s =
      atomicRmw (effAddr a off) n (fun old => some (op old b)) s fun _ s' => .next (s'.advance 1) := by
  rw [atomicSimple, issue_two _ hg (State.isReg_of_reg ha) (State.isReg_of_reg hb), withReg_some _ ha,
    withReg_some _ hb]

theorem atomicFetch_eq (n : Nat) (op : Word → Word → Word) (hg : supports s.params.groups g = true)
    (ha : s.reg dst = some a) (hb : s.reg src = some b) :
    atomicFetch g n op dst src off s =
      atomicRmw (effAddr a off) n (fun old => some (op old b)) s fun old s' => finish src old s' := by
  rw [atomicFetch, issue_two _ hg (State.isReg_of_reg ha) (State.isReg_of_reg hb), withReg_some _ ha,
    withReg_some _ hb]

theorem atomicCmpxchg_eq (n : Nat) (same : Word → Word → Bool) (hg : supports s.params.groups g = true)
    (ha : s.reg dst = some a) (hb : s.reg src = some b) (hc : s.reg 0 = some c) :
    atomicCmpxchg g n same dst src off s =
      atomicRmw (effAddr a off) n (fun old => if same old c then some b else none) s
        fun old s' => finish 0 old s' := by
  rw [atomicCmpxchg, issue_two _ hg (State.isReg_of_reg ha) (State.isReg_of_reg hb), withReg_some _ ha,
    withReg_some _ hb, withReg_some _ hc]

theorem wideLookup_some {found : Option Word} {v : Word} (q : PlatformQuery)
    (hg : supports s.params.groups .base64 = true) (hr : isReg dst = true) (hf : found = some v) :
    wideLookup found q dst s = finishWide dst v s := by
  rw [wideLookup, issue_one _ hg hr, hf]; rfl

theorem wideLookup_none (q : PlatformQuery) (hg : supports s.params.groups .base64 = true) (hr : isReg dst = true) :
    wideLookup none q dst s = raise (.platformFault q) s := by
  rw [wideLookup, issue_one _ hg hr]; rfl

theorem wideMapVal_some {found : Option Word} {m v : Word} (q : PlatformQuery) (nextImm : Imm)
    (hg : supports s.params.groups .base64 = true) (hr : isReg dst = true) (hf : found = some m)
    (hv : s.params.mapVal.lookup m = some v) :
    wideMapVal found q dst nextImm s = finishWide dst (v + sextImm nextImm) s := by
  rw [wideMapVal, issue_one _ hg hr, hf]
  simp only [withLookup, hv]

theorem wideMapVal_noMap (q : PlatformQuery) (nextImm : Imm) (hg : supports s.params.groups .base64 = true)
    (hr : isReg dst = true) : wideMapVal none q dst nextImm s = raise (.platformFault q) s := by
  rw [wideMapVal, issue_one _ hg hr]; rfl

theorem wideMapVal_noVal {m : Word} (q : PlatformQuery) (nextImm : Imm)
    (hg : supports s.params.groups .base64 = true) (hr : isReg dst = true) (hv : s.params.mapVal.lookup m = none) :
    wideMapVal (some m) q dst nextImm s = raise (.platformFault (.mapVal m)) s := by
  rw [wideMapVal, issue_one _ hg hr]
  simp only [withLookup, hv]

end Sys2Proof.Machine
end

