-- ==== Sys2Proof/Laws/PerInstr.lean ====
section
/-! SUPPORT. Statements made per instruction. `RoundTrip`: the fields of a well-formed instruction decode to it. -/

namespace Sys2Proof.Laws.RoundTrip

/-- The fields of the slots of a well-formed instruction decode to that instruction (30_encoding.md R102, R108, R110). -/
def Statement (i : Instr) : Prop :=
  i.wellFormed = true → decode (encodeFields i).1 (encodeFields i).2 = .ok i

theorem accept_ok {p : Bool} (i : Instr) (h : p = true) : accept true p i = .ok i := by rw [h]; rfl

theorem add32K (dst : RegNum) (imm : Imm) : Statement (.add32K dst imm) := fun h => by
  with_unfolding_all exact accept_ok _ h

theorem add32X (dst src : RegNum) : Statement (.add32X dst src) := fun h => by
  with_unfolding_all exact accept_ok _ h

theorem add64K (dst : RegNum) (imm : Imm) : Statement (.add64K dst imm) := fun h => by
  with_unfolding_all exact accept_ok _ h

theorem add64X (dst src : RegNum) : Statement (.add64X dst src) := fun h => by
  with_unfolding_all exact accept_ok _ h

theorem sub32K (dst : RegNum) (imm : Imm) : Statement (.sub32K dst imm) := fun h => by
  with_unfolding_all exact accept_ok _ h

theorem sub32X (dst src : RegNum) : Statement (.sub32X dst src) := fun h => by
  with_unfolding_all exact accept_ok _ h

theorem sub64K (dst : RegNum) (imm : Imm) : Statement (.sub64K dst imm) := fun h => by
  with_unfolding_all exact accept_ok _ h

theorem sub64X (dst src : RegNum) : Statement (.sub64X dst src) := fun h => by
  with_unfolding_all exact accept_ok _ h

theorem mul32K (dst : RegNum) (imm : Imm) : Statement (.mul32K dst imm) := fun h => by
  with_unfolding_all exact accept_ok _ h

theorem mul32X (dst src : RegNum) : Statement (.mul32X dst src) := fun h => by
  with_unfolding_all exact accept_ok _ h

theorem mul64K (dst : RegNum) (imm : Imm) : Statement (.mul64K dst imm) := fun h => by
  with_unfolding_all exact accept_ok _ h

theorem mul64X (dst src : RegNum) : Statement (.mul64X dst src) := fun h => by
  with_unfolding_all exact accept_ok _ h

theorem div32K (dst : RegNum) (imm : Imm) : Statement (.div32K dst imm) := fun h => by
  with_unfolding_all exact accept_ok _ h

theorem div32X (dst src : RegNum) : Statement (.div32X dst src) := fun h => by
  with_unfolding_all exact accept_ok _ h

theorem div64K (dst : RegNum) (imm : Imm) : Statement (.div64K dst imm) := fun h => by
  with_unfolding_all exact accept_ok _ h

theorem div64X (dst src : RegNum) : Statement (.div64X dst src) := fun h => by
  with_unfolding_all exact accept_ok _ h

theorem sdiv32K (dst : RegNum) (imm : Imm) : Statement (.sdiv32K dst imm) := fun h => by
  with_unfolding_all exact accept_ok _ h

theorem sdiv32X (dst src : RegNum) : Statement (.sdiv32X dst src) := fun h => by
  with_unfolding_all exact accept_ok _ h

theorem sdiv64K (dst : RegNum) (imm : Imm) : Statement (.sdiv64K dst imm) := fun h => by
  with_unfolding_all exact accept_ok _ h

theorem sdiv64X (dst src : RegNum) : Statement (.sdiv64X dst src) := fun h => by
  with_unfolding_all exact accept_ok _ h

theorem or32K (dst : RegNum) (imm : Imm) : Statement (.or32K dst imm) := fun h => by
  with_unfolding_all exact accept_ok _ h

theorem or32X (dst src : RegNum) : Statement (.or32X dst src) := fun h => by
  with_unfolding_all exact accept_ok _ h

theorem or64K (dst : RegNum) (imm : Imm) : Statement (.or64K dst imm) := fun h => by
  with_unfolding_all exact accept_ok _ h

theorem or64X (dst src : RegNum) : Statement (.or64X dst src) := fun h => by
  with_unfolding_all exact accept_ok _ h

theorem and32K (dst : RegNum) (imm : Imm) : Statement (.and32K dst imm) := fun h => by
  with_unfolding_all exact accept_ok _ h

theorem and32X (dst src : RegNum) : Statement (.and32X dst src) := fun h => by
  with_unfolding_all exact accept_ok _ h

theorem and64K (dst : RegNum) (imm : Imm) : Statement (.and64K dst imm) := fun h => by
  with_unfolding_all exact accept_ok _ h

theorem and64X (dst src : RegNum) : Statement (.and64X dst src) := fun h => by
  with_unfolding_all exact accept_ok _ h

theorem lsh32K (dst : RegNum) (imm : Imm) : Statement (.lsh32K dst imm) := fun h => by
  with_unfolding_all exact accept_ok _ h

theorem lsh32X (dst src : RegNum) : Statement (.lsh32X dst src) := fun h => by
  with_unfolding_all exact accept_ok _ h

theorem lsh64K (dst : RegNum) (imm : Imm) : Statement (.lsh64K dst imm) := fun h => by
  with_unfolding_all exact accept_ok _ h

theorem lsh64X (dst src : RegNum) : Statement (.lsh64X dst src) := fun h => by
  with_unfolding_all exact accept_ok _ h

theorem rsh32K (dst : RegNum) (imm : Imm) : Statement (.rsh32K dst imm) := fun h => by
  with_unfolding_all exact accept_ok _ h

theorem rsh32X (dst src : RegNum) : Statement (.rsh32X dst src) := fun h => by
  with_unfolding_all exact accept_ok _ h

theorem rsh64K (dst : RegNum) (imm : Imm) : Statement (.rsh64K dst imm) := fun h => by
  with_unfolding_all exact accept_ok _ h

theorem rsh64X (dst src : RegNum) : Statement (.rsh64X dst src) := fun h => by
  with_unfolding_all exact accept_ok _ h

theorem neg32 (dst : RegNum) : Statement (.neg32 dst) := fun h => by
  with_unfolding_all exact accept_ok _ h

theorem neg64 (dst : RegNum) : Statement (.neg64 dst) := fun h => by
  with_unfolding_all exact accept_ok _ h

theorem mod32K (dst : RegNum) (imm : Imm) : Statement (.mod32K dst imm) := fun h => by
  with_unfolding_all exact accept_ok _ h

theorem mod32X (dst src : RegNum) : Statement (.mod32X dst src) := fun h => by
  with_unfolding_all exact accept_ok _ h

theorem mod64K (dst : RegNum) (imm : Imm) : Statement (.mod64K dst imm) := fun h => by
  with_unfolding_all exact accept_ok _ h

theorem mod64X (dst src : RegNum) : Statement (.mod64X dst src) := fun h => by
  with_unfolding_all exact accept_ok _ h

theorem smod32K (dst : RegNum) (imm : Imm) : Statement (.smod32K dst imm) := fun h => by
  with_unfolding_all exact accept_ok _ h

theorem smod32X (dst src : RegNum) : Statement (.smod32X dst src) := fun h => by
  with_unfolding_all exact accept_ok _ h

theorem smod64K (dst : RegNum) (imm : Imm) : Statement (.smod64K dst imm) := fun h => by
  with_unfolding_all exact accept_ok _ h

theorem smod64X (dst src : RegNum) : Statement (.smod64X dst src) := fun h => by
  with_unfolding_all exact accept_ok _ h

theorem xor32K (dst : RegNum) (imm : Imm) : Statement (.xor32K dst imm) := fun h => by
  with_unfolding_all exact accept_ok _ h

theorem xor32X (dst src : RegNum) : Statement (.xor32X dst src) := fun h => by
  with_unfolding_all exact accept_ok _ h

theorem xor64K (dst : RegNum) (imm : Imm) : Statement (.xor64K dst imm) := fun h => by
  with_unfolding_all exact accept_ok _ h

theorem xor64X (dst src : RegNum) : Statement (.xor64X dst src) := fun h => by
  with_unfolding_all exact accept_ok _ h

theorem mov32K (dst : RegNum) (imm : Imm) : Statement (.mov32K dst imm) := fun h => by
  with_unfolding_all exact accept_ok _ h

theorem mov32X (dst src : RegNum) : Statement (.mov32X dst src) := fun h => by
  with_unfolding_all exact accept_ok _ h

theorem mov64K (dst : RegNum) (imm : Imm) : Statement (.mov64K dst imm) := fun h => by
  with_unfolding_all exact accept_ok _ h

theorem mov64X (dst src : RegNum) : Statement (.mov64X dst src) := fun h => by
  with_unfolding_all exact accept_ok _ h

theorem movsx32_8 (dst src : RegNum) : Statement (.movsx32_8 dst src) := fun h => by
  with_unfolding_all exact accept_ok _ h

theorem movsx32_16 (dst src : RegNum) : Statement (.movsx32_16 dst src) := fun h => by
  with_unfolding_all exact accept_ok _ h

theorem movsx64_8 (dst src : RegNum) : Statement (.movsx64_8 dst src) := fun h => by
  with_unfolding_all exact accept_ok _ h

theorem movsx64_16 (dst src : RegNum) : Statement (.movsx64_16 dst src) := fun h => by
  with_unfolding_all exact accept_ok _ h

theorem movsx64_32 (dst src : RegNum) : Statement (.movsx64_32 dst src) := fun h => by
  with_unfolding_all exact accept_ok _ h

theorem arsh32K (dst : RegNum) (imm : Imm) : Statement (.arsh32K dst imm) := fun h => by
  with_unfolding_all exact accept_ok _ h

theorem arsh32X (dst src : RegNum) : Statement (.arsh32X dst src) := fun h => by
  with_unfolding_all exact accept_ok _ h

theorem arsh64K (dst : RegNum) (imm : Imm) : Statement (.arsh64K dst imm) := fun h => by
  with_unfolding_all exact accept_ok _ h

theorem arsh64X (dst src : RegNum) : Statement (.arsh64X dst src) := fun h => by
  with_unfolding_all exact accept_ok _ h

theorem le16 (dst : RegNum) : Statement (.le16 dst) := fun h => by
  with_unfolding_all exact accept_ok _ h

theorem le32 (dst : RegNum) : Statement (.le32 dst) := fun h => by
  with_unfolding_all exact accept_ok _ h

theorem le64 (dst : RegNum) : Statement (.le64 dst) := fun h => by
  with_unfolding_all exact accept_ok _ h

theorem be16 (dst : RegNum) : Statement (.be16 dst) := fun h => by
  with_unfolding_all exact accept_ok _ h

theorem be32 (dst : RegNum) : Statement (.be32 dst) := fun h => by
  with_unfolding_all exact accept_ok _ h

theorem be64 (dst : RegNum) : Statement (.be64 dst) := fun h => by
  with_unfolding_all exact accept_ok _ h

theorem bswap16 (dst : RegNum) : Statement (.bswap16 dst) := fun h => by
  with_unfolding_all exact accept_ok _ h

theorem bswap32 (dst : RegNum) : Statement (.bswap32 dst) := fun h => by
  with_unfolding_all exact accept_ok _ h

theorem bswap64 (dst : RegNum) : Statement (.bswap64 dst) := fun h => by
  with_unfolding_all exact accept_ok _ h

theorem jeq64K (dst : RegNum) (off : Offset) (imm : Imm) : Statement (.jeq64K dst off imm) := fun h => by
  with_unfolding_all exact accept_ok _ h

theorem jeq64X (dst src : RegNum) (off : Offset) : Statement (.jeq64X dst src off) := fun h => by
  with_unfolding_all exact accept_ok _ h

theorem jeq32K (dst : RegNum) (off : Offset) (imm : Imm) : Statement (.jeq32K dst off imm) := fun h => by
  with_unfolding_all exact accept_ok _ h

theorem jeq32X (dst src : RegNum) (off : Offset) : Statement (.jeq32X dst src off) := fun h => by
  with_unfolding_all exact accept_ok _ h

theorem jgt64K (dst : RegNum) (off : Offset) (imm : Imm) : Statement (.jgt64K dst off imm) := fun h => by
  with_unfolding_all exact accept_ok _ h

theorem jgt64X (dst src : RegNum) (off : Offset) : Statement (.jgt64X dst src off) := fun h => by
  with_unfolding_all exact accept_ok _ h

theorem jgt32K (dst : RegNum) (off : Offset) (imm : Imm) : Statement (.jgt32K dst off imm) := fun h => by
  with_unfolding_all exact accept_ok _ h

theorem jgt32X (dst src : RegNum) (off : Offset) : Statement (.jgt32X dst src off) := fun h => by
  with_unfolding_all exact accept_ok _ h

theorem jge64K (dst : RegNum) (off : Offset) (imm : Imm) : Statement (.jge64K dst off imm) := fun h => by
  with_unfolding_all exact accept_ok _ h

theorem jge64X (dst src : RegNum) (off : Offset) : Statement (.jge64X dst src off) := fun h => by
  with_unfolding_all exact accept_ok _ h

theorem jge32K (dst : RegNum) (off : Offset) (imm : Imm) : Statement (.jge32K dst off imm) := fun h => by
  with_unfolding_all exact accept_ok _ h

theorem jge32X (dst src : RegNum) (off : Offset) : Statement (.jge32X dst src off) := fun h => by
  with_unfolding_all exact accept_ok _ h

theorem jset64K (dst : RegNum) (off : Offset) (imm : Imm) : Statement (.jset64K dst off imm) := fun h => by
  with_unfolding_all exact accept_ok _ h

theorem jset64X (dst src : RegNum) (off : Offset) : Statement (.jset64X dst src off) := fun h => by
  with_unfolding_all exact accept_ok _ h

theorem jset32K (dst : RegNum) (off : Offset) (imm : Imm) : Statement (.jset32K dst off imm) := fun h => by
  with_unfolding_all exact accept_ok _ h

theorem jset32X (dst src : RegNum) (off : Offset) : Statement (.jset32X dst src off) := fun h => by
  with_unfolding_all exact accept_ok _ h

theorem jne64K (dst : RegNum) (off : Offset) (imm : Imm) : Statement (.jne64K dst off imm) := fun h => by
  with_unfolding_all exact accept_ok _ h

theorem jne64X (dst src : RegNum) (off : Offset) : Statement (.jne64X dst src off) := fun h => by
  with_unfolding_all exact accept_ok _ h

theorem jne32K (dst : RegNum) (off : Offset) (imm : Imm) : Statement (.jne32K dst off imm) := fun h => by
  with_unfolding_all exact accept_ok _ h

theorem jne32X (dst src : RegNum) (off : Offset) : Statement (.jne32X dst src off) := fun h => by
  with_unfolding_all exact accept_ok _ h

theorem jsgt64K (dst : RegNum) (off : Offset) (imm : Imm) : Statement (.jsgt64K dst off imm) := fun h => by
  with_unfolding_all exact accept_ok _ h

theorem jsgt64X (dst src : RegNum) (off : Offset) : Statement (.jsgt64X dst src off) := fun h => by
  with_unfolding_all exact accept_ok _ h

theorem jsgt32K (dst : RegNum) (off : Offset) (imm : Imm) : Statement (.jsgt32K dst off imm) := fun h => by
  with_unfolding_all exact accept_ok _ h

theorem jsgt32X (dst src : RegNum) (off : Offset) : Statement (.jsgt32X dst src off) := fun h => by
  with_unfolding_all exact accept_ok _ h

theorem jsge64K (dst : RegNum) (off : Offset) (imm : Imm) : Statement (.jsge64K dst off imm) := fun h => by
  with_unfolding_all exact accept_ok _ h

theorem jsge64X (dst src : RegNum) (off : Offset) : Statement (.jsge64X dst src off) := fun h => by
  with_unfolding_all exact accept_ok _ h

theorem jsge32K (dst : RegNum) (off : Offset) (imm : Imm) : Statement (.jsge32K dst off imm) := fun h => by
  with_unfolding_all exact accept_ok _ h

theorem jsge32X (dst src : RegNum) (off : Offset) : Statement (.jsge32X dst src off) := fun h => by
  with_unfolding_all exact accept_ok _ h

theorem jlt64K (dst : RegNum) (off : Offset) (imm : Imm) : Statement (.jlt64K dst off imm) := fun h => by
  with_unfolding_all exact accept_ok _ h

theorem jlt64X (dst src : RegNum) (off : Offset) : Statement (.jlt64X dst src off) := fun h => by
  with_unfolding_all exact accept_ok _ h

theorem jlt32K (dst : RegNum) (off : Offset) (imm : Imm) : Statement (.jlt32K dst off imm) := fun h => by
  with_unfolding_all exact accept_ok _ h

theorem jlt32X (dst src : RegNum) (off : Offset) : Statement (.jlt32X dst src off) := fun h => by
  with_unfolding_all exact accept_ok _ h

theorem jle64K (dst : RegNum) (off : Offset) (imm : Imm) : Statement (.jle64K dst off imm) := fun h => by
  with_unfolding_all exact accept_ok _ h

theorem jle64X (dst src : RegNum) (off : Offset) : Statement (.jle64X dst src off) := fun h => by
  with_unfolding_all exact accept_ok _ h

theorem jle32K (dst : RegNum) (off : Offset) (imm : Imm) : Statement (.jle32K dst off imm) := fun h => by
  with_unfolding_all exact accept_ok _ h

theorem jle32X (dst src : RegNum) (off : Offset) : Statement (.jle32X dst src off) := fun h => by
  with_unfolding_all exact accept_ok _ h

theorem jslt64K (dst : RegNum) (off : Offset) (imm : Imm) : Statement (.jslt64K dst off imm) := fun h => by
  with_unfolding_all exact accept_ok _ h

theorem jslt64X (dst src : RegNum) (off : Offset) : Statement (.jslt64X dst src off) := fun h => by
  with_unfolding_all exact accept_ok _ h

theorem jslt32K (dst : RegNum) (off : Offset) (imm : Imm) : Statement (.jslt32K dst off imm) := fun h => by
  with_unfolding_all exact accept_ok _ h

theorem jslt32X (dst src : RegNum) (off : Offset) : Statement (.jslt32X dst src off) := fun h => by
  with_unfolding_all exact accept_ok _ h

theorem jsle64K (dst : RegNum) (off : Offset) (imm : Imm) : Statement (.jsle64K dst off imm) := fun h => by
  with_unfolding_all exact accept_ok _ h

theorem jsle64X (dst src : RegNum) (off : Offset) : Statement (.jsle64X dst src off) := fun h => by
  with_unfolding_all exact accept_ok _ h

theorem jsle32K (dst : RegNum) (off : Offset) (imm : Imm) : Statement (.jsle32K dst off imm) := fun h => by
  with_unfolding_all exact accept_ok _ h

theorem jsle32X (dst src : RegNum) (off : Offset) : Statement (.jsle32X dst src off) := fun h => by
  with_unfolding_all exact accept_ok _ h

theorem ja (off : Offset) : Statement (.ja off) := fun _ => by
  with_unfolding_all rfl

theorem ja32 (imm : Imm) : Statement (.ja32 imm) := fun _ => by
  with_unfolding_all rfl

theorem callHelper (imm : Imm) : Statement (.callHelper imm) := fun _ => by
  with_unfolding_all rfl

theorem callLocal (imm : Imm) : Statement (.callLocal imm) := fun _ => by
  with_unfolding_all rfl

theorem callBtf (imm : Imm) : Statement (.callBtf imm) := fun _ => by
  with_unfolding_all rfl

theorem exit : Statement .exit := fun _ => by
  with_unfolding_all rfl

theorem ldxW (dst src : RegNum) (off : Offset) : Statement (.ldxW dst src off) := fun h => by
  with_unfolding_all exact accept_ok _ h

theorem ldxH (dst src : RegNum) (off : Offset) : Statement (.ldxH dst src off) := fun h => by
  with_unfolding_all exact accept_ok _ h

theorem ldxB (dst src : RegNum) (off : Offset) : Statement (.ldxB dst src off) := fun h => by
  with_unfolding_all exact accept_ok _ h

theorem ldxDw (dst src : RegNum) (off : Offset) : Statement (.ldxDw dst src off) := fun h => by
  with_unfolding_all exact accept_ok _ h

theorem stW (dst : RegNum) (off : Offset) (imm : Imm) : Statement (.stW dst off imm) := fun h => by
  with_unfolding_all exact accept_ok _ h

theorem stH (dst : RegNum) (off : Offset) (imm : Imm) : Statement (.stH dst off imm) := fun h => by
  with_unfolding_all exact accept_ok _ h

theorem stB (dst : RegNum) (off : Offset) (imm : Imm) : Statement (.stB dst off imm) := fun h => by
  with_unfolding_all exact accept_ok _ h

theorem stDw (dst : RegNum) (off : Offset) (imm : Imm) : Statement (.stDw dst off imm) := fun h => by
  with_unfolding_all exact accept_ok _ h

theorem stxW (dst src : RegNum) (off : Offset) : Statement (.stxW dst src off) := fun h => by
  with_unfolding_all exact accept_ok _ h

theorem stxH (dst src : RegNum) (off : Offset) : Statement (.stxH dst src off) := fun h => by
  with_unfolding_all exact accept_ok _ h

theorem stxB (dst src : RegNum) (off : Offset) : Statement (.stxB dst src off) := fun h => by
  with_unfolding_all exact accept_ok _ h

theorem stxDw (dst src : RegNum) (off : Offset) : Statement (.stxDw dst src off) := fun h => by
  with_unfolding_all exact accept_ok _ h

theorem ldxsW (dst src : RegNum) (off : Offset) : Statement (.ldxsW dst src off) := fun h => by
  with_unfolding_all exact accept_ok _ h

theorem ldxsH (dst src : RegNum) (off : Offset) : Statement (.ldxsH dst src off) := fun h => by
  with_unfolding_all exact accept_ok _ h

theorem ldxsB (dst src : RegNum) (off : Offset) : Statement (.ldxsB dst src off) := fun h => by
  with_unfolding_all exact accept_ok _ h

theorem atomicAdd32 (dst src : RegNum) (off : Offset) : Statement (.atomicAdd32 dst src off) := fun h => by
  with_unfolding_all exact accept_ok _ h

theorem atomicFetchAdd32 (dst src : RegNum) (off : Offset) : Statement (.atomicFetchAdd32 dst src off) := fun h => by
  with_unfolding_all exact accept_ok _ h

theorem atomicOr32 (dst src : RegNum) (off : Offset) : Statement (.atomicOr32 dst src off) := fun h => by
  with_unfolding_all exact accept_ok _ h

theorem atomicFetchOr32 (dst src : RegNum) (off : Offset) : Statement (.atomicFetchOr32 dst src off) := fun h => by
  with_unfolding_all exact accept_ok _ h

theorem atomicAnd32 (dst src : RegNum) (off : Offset) : Statement (.atomicAnd32 dst src off) := fun h => by
  with_unfolding_all exact accept_ok _ h

theorem atomicFetchAnd32 (dst src : RegNum) (off : Offset) : Statement (.atomicFetchAnd32 dst src off) := fun h => by
  with_unfolding_all exact accept_ok _ h

theorem atomicXor32 (dst src : RegNum) (off : Offset) : Statement (.atomicXor32 dst src off) := fun h => by
  with_unfolding_all exact accept_ok _ h

theorem atomicFetchXor32 (dst src : RegNum) (off : Offset) : Statement (.atomicFetchXor32 dst src off) := fun h => by
  with_unfolding_all exact accept_ok _ h

theorem atomicXchg32 (dst src : RegNum) (off : Offset) : Statement (.atomicXchg32 dst src off) := fun h => by
  with_unfolding_all exact accept_ok _ h

theorem atomicCmpxchg32 (dst src : RegNum) (off : Offset) : Statement (.atomicCmpxchg32 dst src off) := fun h => by
  with_unfolding_all exact accept_ok _ h

theorem atomicAdd64 (dst src : RegNum) (off : Offset) : Statement (.atomicAdd64 dst src off) := fun h => by
  with_unfolding_all exact accept_ok _ h

theorem atomicFetchAdd64 (dst src : RegNum) (off : Offset) : Statement (.atomicFetchAdd64 dst src off) := fun h => by
  with_unfolding_all exact accept_ok _ h

theorem atomicOr64 (dst src : RegNum) (off : Offset) : Statement (.atomicOr64 dst src off) := fun h => by
  with_unfolding_all exact accept_ok _ h

theorem atomicFetchOr64 (dst src : RegNum) (off : Offset) : Statement (.atomicFetchOr64 dst src off) := fun h => by
  with_unfolding_all exact accept_ok _ h

theorem atomicAnd64 (dst src : RegNum) (off : Offset) : Statement (.atomicAnd64 dst src off) := fun h => by
  with_unfolding_all exact accept_ok _ h

theorem atomicFetchAnd64 (dst src : RegNum) (off : Offset) : Statement (.atomicFetchAnd64 dst src off) := fun h => by
  with_unfolding_all exact accept_ok _ h

theorem atomicXor64 (dst src : RegNum) (off : Offset) : Statement (.atomicXor64 dst src off) := fun h => by
  with_unfolding_all exact accept_ok _ h

theorem atomicFetchXor64 (dst src : RegNum) (off : Offset) : Statement (.atomicFetchXor64 dst src off) := fun h => by
  with_unfolding_all exact accept_ok _ h

theorem atomicXchg64 (dst src : RegNum) (off : Offset) : Statement (.atomicXchg64 dst src off) := fun h => by
  with_unfolding_all exact accept_ok _ h

theorem atomicCmpxchg64 (dst src : RegNum) (off : Offset) : Statement (.atomicCmpxchg64 dst src off) := fun h => by
  with_unfolding_all exact accept_ok _ h

theorem lddw (dst : RegNum) (imm nextImm : Imm) : Statement (.lddw dst imm nextImm) := fun h => by
  with_unfolding_all exact if_pos h

theorem ldMapFd (dst : RegNum) (imm : Imm) : Statement (.ldMapFd dst imm) := fun h => by
  with_unfolding_all exact if_pos h

theorem ldMapValFd (dst : RegNum) (imm nextImm : Imm) : Statement (.ldMapValFd dst imm nextImm) := fun h => by
  with_unfolding_all exact if_pos h

theorem ldVarAddr (dst : RegNum) (imm : Imm) : Statement (.ldVarAddr dst imm) := fun h => by
  with_unfolding_all exact if_pos h

theorem ldCodeAddr (dst : RegNum) (imm : Imm) : Statement (.ldCodeAddr dst imm) := fun h => by
  with_unfolding_all exact if_pos h

theorem ldMapIdx (dst : RegNum) (imm : Imm) : Statement (.ldMapIdx dst imm) := fun h => by
  with_unfolding_all exact if_pos h

theorem ldMapValIdx (dst : RegNum) (imm nextImm : Imm) : Statement (.ldMapValIdx dst imm nextImm) := fun h => by
  with_unfolding_all exact if_pos h

theorem imm64Hi (nextImm : Imm) : Statement (.imm64Hi nextImm) := fun _ => by
  with_unfolding_all rfl

theorem ldAbsW (imm : Imm) : Statement (.ldAbsW imm) := fun _ => by
  with_unfolding_all rfl

theorem ldAbsH (imm : Imm) : Statement (.ldAbsH imm) := fun _ => by
  with_unfolding_all rfl

theorem ldAbsB (imm : Imm) : Statement (.ldAbsB imm) := fun _ => by
  with_unfolding_all rfl

theorem ldIndW (src : RegNum) (imm : Imm) : Statement (.ldIndW src imm) := fun h => by
  with_unfolding_all exact accept_ok _ h

theorem ldIndH (src : RegNum) (imm : Imm) : Statement (.ldIndH src imm) := fun h => by
  with_unfolding_all exact accept_ok _ h

theorem ldIndB (src : RegNum) (imm : Imm) : Statement (.ldIndB src imm) := fun h => by
  with_unfolding_all exact accept_ok _ h

end Sys2Proof.Laws.RoundTrip
end

