-- ==== Sys2Proof/Laws/Platform.lean ====
section
/-! SUPPORT. What a platform function answers: one of the answers its relation gives (44_call_exit.md R321), whichever the
free choice takes; and every relation from registers and memory to answers is the table of some platform. -/

namespace Sys2Proof.Machine

/-! ## The answer taken -/

theorem applies_iff {s : State} {r : PlatformRule} :
    applies s r = true ↔ (∀ w ∈ r.regs, s.reg w.1 = w.2) ∧ ∀ w ∈ r.bytes, s.mem.read w.1.toNat = w.2 := by
  simp [applies, List.all_eq_true]

/-- The answers are those the relation gives. -/
theorem mem_answersOf {s : State} {fn : PlatformFn} {a : Answer} : a ∈ answersOf s fn ↔ Gives s fn a := by
  simp only [answersOf, Gives]
  cases h : s.params.platform.find? fun e => e.fn == fn with
  | none => simp
  | some e => simp [applies_iff, and_assoc]

theorem pick_mem {l : List Answer} {n : Nat} {a : Answer} (h : pick l n = some a) : a ∈ l := by
  match l with
  | [] => cases h
  | [b] => cases h; exact List.mem_singleton_self _
  | b :: c :: l => exact List.mem_of_getElem? h

theorem pick_eq_none {l : List Answer} {n : Nat} : pick l n = none ↔ l = [] := by
  match l with
  | [] => simp [pick]
  | [b] => simp [pick]
  | b :: c :: l =>
    simp only [pick, List.getElem?_eq_none_iff, List.length_cons, reduceCtorEq, iff_false]
    have := Nat.mod_lt (Config.freeChoice n) (show 0 < l.length + 2 by omega)
    omega

/-- An answer is one the relation gives. -/
theorem gives_of_answerOf {s : State} {fn : PlatformFn} {a : Answer} (h : answerOf s fn = some a) : Gives s fn a :=
  mem_answersOf.mp (pick_mem h)

/-- There is no answer exactly where the relation gives none. -/
theorem answerOf_eq_none {s : State} {fn : PlatformFn} : answerOf s fn = none ↔ ∀ a, ¬Gives s fn a := by
  simp only [answerOf, pick_eq_none, List.eq_nil_iff_forall_not_mem, mem_answersOf]

/-! ## Every relation is a table -/

/-- The rule that applies exactly where the registers and memory are these (for memory, at the addresses listed). -/
def ruleAt (addrs : List Word) (x : Vector (Option Word) 11) (m : Memory) (a : Answer) : PlatformRule where
  regs := (List.finRange 11).map fun i : Fin 11 => (BitVec.ofNat 4 i.val, x[i])
  bytes := addrs.map fun c => (c, m.read c.toNat)
  answer := a

theorem applies_ruleAt {addrs : List Word} (hall : ∀ c, c ∈ addrs) {s : State} (hs : s.mem.wf = true)
    {x : Vector (Option Word) 11} {m : Memory} (hm : m.wf = true) {a : Answer} :
    applies s (ruleAt addrs x m a) = true ↔ s.x = x ∧ s.mem = m := by
  simp only [applies_iff, ruleAt, List.forall_mem_map]
  constructor
  · rintro ⟨hx, hb⟩
    refine ⟨Vector.ext fun i hi => ?_, Memory.ext hs hm fun c hc => ?_⟩
    · have h := hx ⟨i, hi⟩ (List.mem_finRange _)
      simpa [State.reg, Nat.mod_eq_of_lt (show i < 16 by omega), Vector.getElem?_eq_getElem hi] using h
    · have h := hb (BitVec.ofNat 64 c) (hall _)
      rwa [BitVec.toNat_ofNat, Nat.mod_eq_of_lt hc] at h
  · rintro ⟨rfl, rfl⟩
    refine ⟨fun i _ => ?_, fun _ _ => rfl⟩
    simp [State.reg, Nat.mod_eq_of_lt (show i.1 < 16 by omega)]

/-- Only finitely many register files and canonical memories exist. -/
theorem finite_contents : Finite (Vector (Option Word) 11 × { m : Memory // m.wf = true }) := by
  have hx : Finite (Vector (Option Word) 11) :=
    Finite.of_injective (fun x : Vector (Option Word) 11 => fun i : Fin 11 => (x[i]).map BitVec.toFin) fun x y h =>
      Vector.ext fun i hi => Option.map_injective (fun _ _ => BitVec.eq_of_toFin_eq) (congrFun h ⟨i, hi⟩)
  have hm : Finite { m : Memory // m.wf = true } :=
    Finite.of_injective (fun m => fun c : Fin (2 ^ 64) => (m.1.read c).toFin) fun m m' h =>
      Subtype.ext (Memory.ext m.2 m'.2 fun c hc => BitVec.eq_of_toFin_eq (congrFun h ⟨c, hc⟩))
  exact inferInstance

/-- Picking the entries of one key out of a list that lists each key's entries in turn. -/
theorem flatMap_ite_of_nodup {α β : Type} [DecidableEq α] {l : List α} (hl : l.Nodup) {k : α} (hk : k ∈ l)
    (f : α → List β) : (l.flatMap fun q => if q = k then f q else []) = f k := by
  induction l with
  | nil => cases hk
  | cons q l ih =>
    rw [List.nodup_cons] at hl
    rw [List.flatMap_cons]
    by_cases h : q = k
    · subst h
      have : (l.flatMap fun p => if p = q then f p else []) = [] :=
        List.flatMap_eq_nil_iff.mpr fun p hp => if_neg fun e : p = q => hl.1 (e ▸ hp)
      rw [if_pos rfl, this, List.append_nil]
    · rw [if_neg h, List.nil_append, ih hl.2 ((List.mem_cons.mp hk).resolve_left fun e => h e.symm)]

/-- Every relation from registers and canonical memory to answers is the table of an entry: nothing the spec allows a
helper to be (10_state.md R45) is left out. -/
theorem exists_entry (fn : PlatformFn) (H : Vector (Option Word) 11 → Memory → List Answer) :
    ∃ e : PlatformEntry, e.fn = fn ∧
      ∀ s : State, s.mem.wf = true → s.params.platform = [e] → answersOf s fn = H s.x s.mem := by
  classical
  have := finite_contents
  obtain ⟨addrs, hall⟩ := exists_addresses
  have := Fintype.ofFinite (Vector (Option Word) 11 × { m : Memory // m.wf = true })
  have hmem : ∀ k, k ∈ (Finset.univ : Finset (Vector (Option Word) 11 × { m : Memory // m.wf = true })).toList :=
    fun k => Finset.mem_toList.mpr (Finset.mem_univ k)
  have hdup := (Finset.univ : Finset (Vector (Option Word) 11 × { m : Memory // m.wf = true })).nodup_toList
  generalize (Finset.univ : Finset (Vector (Option Word) 11 × { m : Memory // m.wf = true })).toList = keys at hmem hdup
  refine ⟨⟨fn, keys.flatMap fun k => (H k.1 k.2.1).map (ruleAt addrs k.1 k.2.1)⟩, rfl, fun s hs hp => ?_⟩
  have hfind : (s.params.platform.find? fun e => e.fn == fn) =
      some ⟨fn, keys.flatMap fun k => (H k.1 k.2.1).map (ruleAt addrs k.1 k.2.1)⟩ := by simp [hp]
  simp only [answersOf, hfind]
  rw [List.filter_flatMap, List.map_flatMap]
  have key : ∀ q : Vector (Option Word) 11 × { m : Memory // m.wf = true },
      ((((H q.1 q.2.1).map (ruleAt addrs q.1 q.2.1)).filter (applies s)).map (·.answer)) =
        if q = (s.x, ⟨s.mem, hs⟩) then H q.1 q.2.1 else [] := by
    intro q
    by_cases h : q = (s.x, ⟨s.mem, hs⟩)
    · rw [if_pos h, List.filter_eq_self.mpr, List.map_map]
      · exact List.map_id'' (fun _ => rfl) _
      · rintro r hr
        obtain ⟨a, -, rfl⟩ := List.mem_map.mp hr
        exact (applies_ruleAt hall hs q.2.2).mpr ⟨by rw [h], by rw [h]⟩
    · rw [if_neg h, List.filter_eq_nil_iff.mpr, List.map_nil]
      rintro r hr ha
      obtain ⟨a, -, rfl⟩ := List.mem_map.mp hr
      obtain ⟨h1, h2⟩ := (applies_ruleAt hall hs q.2.2).mp ha
      exact h (Prod.ext h1.symm (Subtype.ext h2.symm))
  simp only [key]
  exact flatMap_ite_of_nodup hdup (hmem _) fun q => H q.1 q.2.1

end Sys2Proof.Machine
end

