-- ==== Sys2Proof/Laws/Slots.lean ====
section
/-! SUPPORT. The fields of a slot and the bytes of a slot determine each other, on both hosts (30_encoding.md R103). -/

namespace Sys2Proof

theorem toNat_concat {n m : Nat} (x : BitVec n) (y : BitVec m) : (x ++ y).toNat = x.toNat * 2 ^ m + y.toNat := by
  rw [BitVec.toNat_append, ← Nat.shiftLeft_add_eq_or_of_lt y.isLt, Nat.shiftLeft_eq]

theorem toNat_field {w : Nat} (v : BitVec w) (lo n : Nat) :
    (v.extractLsb' lo n).toNat = v.toNat / 2 ^ lo % 2 ^ n := by
  rw [BitVec.extractLsb'_toNat, Nat.shiftRight_eq_div_pow]

/-- The register byte of a slot has a high and a low nibble. -/
theorem nibbles (v : BitVec 8) : v.extractLsb' 4 4 ++ v.extractLsb' 0 4 = v := by
  apply BitVec.eq_of_toNat_eq
  simp only [toNat_concat, toNat_field]
  omega

theorem high_nibble (a b : BitVec 4) : (a ++ b).extractLsb' 4 4 = a := by
  apply BitVec.eq_of_toNat_eq
  simp only [toNat_concat, toNat_field]
  omega

theorem low_nibble (a b : BitVec 4) : (a ++ b).extractLsb' 0 4 = b := by
  apply BitVec.eq_of_toNat_eq
  simp only [toNat_concat, toNat_field]
  omega

/-- The two bytes of an offset. -/
theorem two_bytes (v : BitVec 16) : byteOf v 1 ++ byteOf v 0 = v := by
  apply BitVec.eq_of_toNat_eq
  simp only [byteOf, toNat_concat, toNat_field]
  omega

theorem byteOf_two (a b : BitVec 8) : byteOf (a ++ b) 0 = b ∧ byteOf (a ++ b) 1 = a := by
  constructor <;>
  · apply BitVec.eq_of_toNat_eq
    simp only [byteOf, toNat_concat, toNat_field]
    omega

/-- The four bytes of an immediate. -/
theorem four_bytes (v : BitVec 32) : byteOf v 3 ++ byteOf v 2 ++ byteOf v 1 ++ byteOf v 0 = v := by
  apply BitVec.eq_of_toNat_eq
  simp only [byteOf, toNat_concat, toNat_field]
  omega

theorem byteOf_four (a b c d : BitVec 8) :
    byteOf (a ++ b ++ c ++ d) 0 = d ∧ byteOf (a ++ b ++ c ++ d) 1 = c ∧ byteOf (a ++ b ++ c ++ d) 2 = b ∧
      byteOf (a ++ b ++ c ++ d) 3 = a := by
  refine ⟨?_, ?_, ?_, ?_⟩ <;>
  · apply BitVec.eq_of_toNat_eq
    simp only [byteOf, toNat_concat, toNat_field]
    omega

/-- Reading the fields of the slot that holds them. -/
@[simp] theorem Fields.ofSlot_ofFields (e : Endian) (f : Fields) : Fields.ofSlot e (Slot.ofFields e f) = f := by
  cases e <;> simp [Fields.ofSlot, Slot.ofFields, high_nibble, low_nibble, two_bytes, four_bytes]

/-- The slot that holds the fields of a slot is that slot. -/
@[simp] theorem Slot.ofFields_ofSlot (e : Endian) (s : Slot) : Slot.ofFields e (Fields.ofSlot e s) = s := by
  cases e <;> simp [Fields.ofSlot, Slot.ofFields, nibbles, byteOf_two, byteOf_four]

end Sys2Proof
end

