-- ==== Sys2Proof/Laws/Torn.lean ====
section
/-! SUPPORT. Taking the byte events of a torn access in rising order leaves nothing out (20_memory.md R73, R74; assumption
log entry 11): every outcome that agrees with what the rules fix (the bytes that are not shared) is one the model has,
under some environment. Whatever the order of the events, they fix no more than that. -/

namespace Sys2Proof.Machine

/-- A turn that writes what memory `m` holds at the addresses listed leaves that there, where the byte is shared. -/
theorem envWrites_to (p : Params) (m : Memory) (addrs : List Word) {u : Memory} (hu : u.wf = true) {c : Word}
    (hc : c ∈ addrs) (hs : isShared p c.toNat = true) :
    ((addrs.map fun c => (c, m.read c.toNat)).foldl (envWrite p) u).read c.toNat = m.read c.toNat := by
  induction addrs generalizing u with
  | nil => cases hc
  | cons d addrs ih =>
    have hw : (envWrite p u (d, m.read d.toNat)).wf = true := envWrites_wf p [_] hu
    rw [List.map_cons, List.foldl_cons]
    rcases List.mem_cons.mp hc with rfl | hc
    · rcases envWrites_source p (addrs.map fun c => (c, m.read c.toNat)) hw c.toNat with h | ⟨w, hmem, ha, h⟩
      · rw [h]; simp only [envWrite, hs, if_true]; exact Memory.read_write_self hu _ _
      · obtain ⟨e, -, rfl⟩ := List.mem_map.mp hmem
        exact h.trans (congrArg m.read ha)
    · exact ih hw hc

/-- Some turn takes memory to any memory that differs in shared bytes only. -/
theorem exists_turn (p : Params) {u m : Memory} (hu : u.wf = true) (hm : m.wf = true)
    (h : ∀ c, isShared p c = false → m.read c = u.read c) : ∃ t : EnvTurn, t.foldl (envWrite p) u = m := by
  obtain ⟨addrs, hall⟩ := exists_addresses
  refine ⟨addrs.map fun c => (c, m.read c.toNat), Memory.ext (envWrites_wf p _ hu) hm fun a ha => ?_⟩
  cases hs : isShared p a with
  | false => rw [envWrites_read p _ u hs, h a hs]
  | true =>
    have := envWrites_to p m addrs hu (hall (BitVec.ofNat 64 a)) (by
      rwa [BitVec.toNat_ofNat, Nat.mod_eq_of_lt ha])
    rwa [BitVec.toNat_ofNat, Nat.mod_eq_of_lt ha] at this

theorem envTurn_mem {s : State} (h : s.params.shared ≠ []) :
    (envTurn s).mem = s.env.next.foldl (envWrite s.params) s.mem := by
  simp only [envTurn]; split <;> simp_all

theorem envTurn_rest {s : State} (h : s.params.shared ≠ []) : (envTurn s).env = s.env.rest := by
  simp only [envTurn]; split <;> simp_all

/-- Every memory a torn store may leave, in any order of its byte events and under any environment, it leaves here. -/
theorem exists_writeTorn (bs : List Byte) (a : Nat) {s : State} (hs : s.mem.wf = true) (ha : a + bs.length ≤ 2 ^ 64)
    {m : Memory} (hm : m.wf = true) (hshared : s.params.shared ≠ [])
    (hout : ∀ c, isShared s.params c = false → c < a ∨ a + bs.length ≤ c → m.read c = s.mem.read c)
    (hin : ∀ k (hk : k < bs.length), isShared s.params (a + k) = false → m.read (a + k) = bs[k]) :
    ∃ coming, ∀ taken, (writeTorn bs a { s with env := ⟨coming, taken⟩ }).mem = m := by
  induction bs generalizing a s with
  | nil =>
    obtain ⟨t, ht⟩ := exists_turn s.params hs hm fun c hc => hout c hc (by simp; omega)
    exact ⟨[t], fun n => (envTurn_mem (s := { s with env := ⟨[t], n⟩ }) hshared).trans ht⟩
  | cons b bs ih =>
    simp only [List.length_cons] at ha hout hin
    obtain ⟨coming, h⟩ := ih (a + 1) (s := { s with mem := s.mem.write a b }) (Memory.wf_write b hs (by omega))
      (by omega) hshared
      (fun c hc h => by
        by_cases e : c = a
        · subst e
          rw [Memory.read_write_self hs]
          exact hin 0 (by omega) hc
        · rw [Memory.read_write_other _ _ e]
          exact hout c hc (by omega))
      (fun k hk hc => by
        have := hin (k + 1) (by omega) (by rwa [show a + (k + 1) = a + 1 + k by omega])
        rwa [show a + (k + 1) = a + 1 + k by omega] at this)
    refine ⟨[] :: coming, fun n => (congrArg State.mem ?_).trans (h n)⟩
    simp only [writeTorn]
    congr 1
    rw [envTurn_eq, envTurn_mem (by exact hshared), envTurn_rest (by exact hshared)]
    rfl

/-- Every pair of bytes read and memory left that a torn load may give, it gives here. -/
theorem exists_readTorn (bs : List Byte) (a : Nat) {s : State} (hs : s.mem.wf = true) (ha : a + bs.length ≤ 2 ^ 64)
    {m : Memory} (hm : m.wf = true) (hshared : s.params.shared ≠ [])
    (hout : ∀ c, isShared s.params c = false → m.read c = s.mem.read c)
    (hin : ∀ k (hk : k < bs.length), isShared s.params (a + k) = false → bs[k] = s.mem.read (a + k)) :
    ∃ coming, ∀ taken, (readTorn bs.length a { s with env := ⟨coming, taken⟩ }).1 = bs ∧
      (readTorn bs.length a { s with env := ⟨coming, taken⟩ }).2.mem = m := by
  induction bs generalizing a s with
  | nil =>
    obtain ⟨t, ht⟩ := exists_turn s.params hs hm hout
    exact ⟨[t], fun n => ⟨rfl, (envTurn_mem (s := { s with env := ⟨[t], n⟩ }) hshared).trans ht⟩⟩
  | cons b bs ih =>
    simp only [List.length_cons] at ha hin
    have hu : (envWrite s.params s.mem (BitVec.ofNat 64 a, b)).wf = true := envWrites_wf s.params [_] hs
    have hmod : a % 2 ^ 64 = a := Nat.mod_eq_of_lt (by omega)
    obtain ⟨coming, h⟩ := ih (a + 1) (s := { s with mem := envWrite s.params s.mem (BitVec.ofNat 64 a, b) }) hu (by omega)
      hshared
      (fun c hc => (hout c hc).trans (envWrites_read s.params [(BitVec.ofNat 64 a, b)] s.mem hc).symm)
      (fun k hk hc => by
        have := hin (k + 1) (by omega) (by rwa [show a + (k + 1) = a + 1 + k by omega])
        rw [show a + (k + 1) = a + 1 + k by omega] at this
        exact this.trans (envWrites_read s.params [(BitVec.ofNat 64 a, b)] s.mem hc).symm)
    refine ⟨[(BitVec.ofNat 64 a, b)] :: coming, fun n => ?_⟩
    have e : envTurn { s with env := ⟨[(BitVec.ofNat 64 a, b)] :: coming, n⟩ } =
        { s with mem := envWrite s.params s.mem (BitVec.ofNat 64 a, b), env := ⟨coming, n⟩ } := by
      rw [envTurn_eq, envTurn_mem (by exact hshared), envTurn_rest (by exact hshared)]
      rfl
    simp only [List.length_cons, readTorn, e]
    refine ⟨?_, (h n).2⟩
    rw [(h n).1]
    congr 1
    simp only [envWrite, BitVec.toNat_ofNat, hmod]
    split
    · exact Memory.read_write_self hs _ _
    · rename_i hc
      exact (hin 0 (by omega) (by simpa using hc)).symm

end Sys2Proof.Machine
end

