-- ==== Sys2Proof/Tests/Slice0.lean ====
section
/-! SUPPORT. Tests: ill-formed terms refused, the words and results of the spec's own examples (each test names the file
of spec/ its expected values come from), and for every statement with hypotheses a state and operands that meet them. -/

namespace Sys2Proof.Tests

open Sys2Proof.Machine

/-! ## Helpers -/

/-- A Running state whose registers hold no value but r1 and r2. -/
def start (r1 r2 : Option Word) : State :=
  { State.reset with x := #v[none, r1, r2, none, none, none, none, none, none, none, none] }

/-- The same state with other parameters. -/
def withParams (p : Params) (s : State) : State := { s with params := p }

/-- The same state on a big-endian host. -/
def onBig (s : State) : State := withParams { s.params with endian := .big } s

/-- The same state with these bytes in memory. -/
def holding (a : Nat) (bs : List Byte) (s : State) : State := { s with mem := writeBytes s.mem a bs }

/-- The state after an instruction that completes with the run going on. -/
def after (i : Instr) (s : State) : Option State :=
  match exec i s with
  | .next t => if t.status = .running then some t else none
  | _ => none

def regAfter (i : Instr) (s : State) (r : RegNum) : Option Word := (after i s).bind fun t => t.reg r

def pcAfter (i : Instr) (s : State) : Option Int := (after i s).map fun t => t.pc

/-- Eight bytes of memory after an instruction. -/
def bytesAfter (i : Instr) (s : State) (a : Nat) : List Byte :=
  match after i s with
  | some t => readBytes t.mem a 8
  | none => []

/-- The state after a step. -/
def stepped (s : State) : Option State :=
  match step s with
  | .next t => some t
  | _ => none

/-- The status a state goes on to. -/
def statusAfter (r : Result) : Option Status :=
  match r with
  | .next t => some t.status
  | _ => none

/-- The memory of the load examples (45_load_store.md), and of the atomic ones (46_atomic.md). -/
def loadBytes : List Byte := [0x88, 0x99, 0xaa, 0xbb, 0xcc, 0xdd, 0xee, 0xff]

def atomicBytes : List Byte := [0xf0, 0xff, 0xff, 0xff, 0x0f, 0, 0, 0x80]

/-! ## Decoding: the words of the spec's examples, one for every instruction -/

/-- The example bytes of 40_alu_add_to_rsh.md. -/
theorem test_decode_add_to_rsh_1 :
    decodeSlots .little [⟨0x04, 0x01, 0, 0, 0x01, 0, 0, 0⟩] = .ok (.add32K 1 0x00000001) ∧
    decodeSlots .little [⟨0x0c, 0x21, 0, 0, 0, 0, 0, 0⟩] = .ok (.add32X 1 2) ∧
    decodeSlots .little [⟨0x07, 0x01, 0, 0, 0xfe, 0xff, 0xff, 0xff⟩] = .ok (.add64K 1 0xfffffffe) ∧
    decodeSlots .little [⟨0x0f, 0x21, 0, 0, 0, 0, 0, 0⟩] = .ok (.add64X 1 2) ∧
    decodeSlots .little [⟨0x14, 0x01, 0, 0, 0x01, 0, 0, 0⟩] = .ok (.sub32K 1 0x00000001) ∧
    decodeSlots .little [⟨0x1c, 0x21, 0, 0, 0, 0, 0, 0⟩] = .ok (.sub32X 1 2) ∧
    decodeSlots .little [⟨0x17, 0x01, 0, 0, 0x01, 0, 0, 0⟩] = .ok (.sub64K 1 0x00000001) ∧
    decodeSlots .little [⟨0x1f, 0x21, 0, 0, 0, 0, 0, 0⟩] = .ok (.sub64X 1 2) ∧
    decodeSlots .little [⟨0x24, 0x01, 0, 0, 0, 0, 0x01, 0⟩] = .ok (.mul32K 1 0x00010000) ∧
    decodeSlots .little [⟨0x2c, 0x21, 0, 0, 0, 0, 0, 0⟩] = .ok (.mul32X 1 2) ∧
    decodeSlots .little [⟨0x27, 0x01, 0, 0, 0xff, 0xff, 0xff, 0xff⟩] = .ok (.mul64K 1 0xffffffff) ∧
    decodeSlots .little [⟨0x2f, 0x21, 0, 0, 0, 0, 0, 0⟩] = .ok (.mul64X 1 2) :=
  ⟨rfl, rfl, rfl, rfl, rfl, rfl, rfl, rfl, rfl, rfl, rfl, rfl⟩

/-- The example bytes of 40_alu_add_to_rsh.md. -/
theorem test_decode_add_to_rsh_2 :
    decodeSlots .little [⟨0x34, 0x01, 0, 0, 0xff, 0xff, 0xff, 0xff⟩] = .ok (.div32K 1 0xffffffff) ∧
    decodeSlots .little [⟨0x3c, 0x21, 0, 0, 0, 0, 0, 0⟩] = .ok (.div32X 1 2) ∧
    decodeSlots .little [⟨0x37, 0x01, 0, 0, 0xff, 0xff, 0xff, 0xff⟩] = .ok (.div64K 1 0xffffffff) ∧
    decodeSlots .little [⟨0x3f, 0x21, 0, 0, 0, 0, 0, 0⟩] = .ok (.div64X 1 2) ∧
    decodeSlots .little [⟨0x34, 0x01, 0x01, 0, 0x03, 0, 0, 0⟩] = .ok (.sdiv32K 1 0x00000003) ∧
    decodeSlots .little [⟨0x3c, 0x21, 0x01, 0, 0, 0, 0, 0⟩] = .ok (.sdiv32X 1 2) ∧
    decodeSlots .little [⟨0x37, 0x01, 0x01, 0, 0x03, 0, 0, 0⟩] = .ok (.sdiv64K 1 0x00000003) ∧
    decodeSlots .little [⟨0x3f, 0x21, 0x01, 0, 0, 0, 0, 0⟩] = .ok (.sdiv64X 1 2) ∧
    decodeSlots .little [⟨0x44, 0x01, 0, 0, 0x10, 0, 0, 0⟩] = .ok (.or32K 1 0x00000010) ∧
    decodeSlots .little [⟨0x4c, 0x21, 0, 0, 0, 0, 0, 0⟩] = .ok (.or32X 1 2) ∧
    decodeSlots .little [⟨0x47, 0x01, 0, 0, 0, 0, 0, 0x80⟩] = .ok (.or64K 1 0x80000000) ∧
    decodeSlots .little [⟨0x4f, 0x21, 0, 0, 0, 0, 0, 0⟩] = .ok (.or64X 1 2) :=
  ⟨rfl, rfl, rfl, rfl, rfl, rfl, rfl, rfl, rfl, rfl, rfl, rfl⟩

/-- The example bytes of 40_alu_add_to_rsh.md. -/
theorem test_decode_add_to_rsh_3 :
    decodeSlots .little [⟨0x54, 0x01, 0, 0, 0xff, 0xff, 0, 0⟩] = .ok (.and32K 1 0x0000ffff) ∧
    decodeSlots .little [⟨0x5c, 0x21, 0, 0, 0, 0, 0, 0⟩] = .ok (.and32X 1 2) ∧
    decodeSlots .little [⟨0x57, 0x01, 0, 0, 0, 0xff, 0xff, 0xff⟩] = .ok (.and64K 1 0xffffff00) ∧
    decodeSlots .little [⟨0x5f, 0x21, 0, 0, 0, 0, 0, 0⟩] = .ok (.and64X 1 2) ∧
    decodeSlots .little [⟨0x64, 0x01, 0, 0, 0x01, 0, 0, 0⟩] = .ok (.lsh32K 1 0x00000001) ∧
    decodeSlots .little [⟨0x6c, 0x21, 0, 0, 0, 0, 0, 0⟩] = .ok (.lsh32X 1 2) ∧
    decodeSlots .little [⟨0x67, 0x01, 0, 0, 0x3f, 0, 0, 0⟩] = .ok (.lsh64K 1 0x0000003f) ∧
    decodeSlots .little [⟨0x6f, 0x21, 0, 0, 0, 0, 0, 0⟩] = .ok (.lsh64X 1 2) ∧
    decodeSlots .little [⟨0x74, 0x01, 0, 0, 0x1f, 0, 0, 0⟩] = .ok (.rsh32K 1 0x0000001f) ∧
    decodeSlots .little [⟨0x7c, 0x21, 0, 0, 0, 0, 0, 0⟩] = .ok (.rsh32X 1 2) ∧
    decodeSlots .little [⟨0x77, 0x01, 0, 0, 0x3f, 0, 0, 0⟩] = .ok (.rsh64K 1 0x0000003f) ∧
    decodeSlots .little [⟨0x7f, 0x21, 0, 0, 0, 0, 0, 0⟩] = .ok (.rsh64X 1 2) :=
  ⟨rfl, rfl, rfl, rfl, rfl, rfl, rfl, rfl, rfl, rfl, rfl, rfl⟩

/-- The example bytes of 41_alu_neg_to_arsh.md. -/
theorem test_decode_neg_to_arsh_1 :
    decodeSlots .little [⟨0x84, 0x01, 0, 0, 0, 0, 0, 0⟩] = .ok (.neg32 1) ∧
    decodeSlots .little [⟨0x87, 0x01, 0, 0, 0, 0, 0, 0⟩] = .ok (.neg64 1) ∧
    decodeSlots .little [⟨0x94, 0x01, 0, 0, 0xff, 0xff, 0xff, 0xff⟩] = .ok (.mod32K 1 0xffffffff) ∧
    decodeSlots .little [⟨0x9c, 0x21, 0, 0, 0, 0, 0, 0⟩] = .ok (.mod32X 1 2) ∧
    decodeSlots .little [⟨0x97, 0x01, 0, 0, 0xff, 0xff, 0xff, 0xff⟩] = .ok (.mod64K 1 0xffffffff) ∧
    decodeSlots .little [⟨0x9f, 0x21, 0, 0, 0, 0, 0, 0⟩] = .ok (.mod64X 1 2) ∧
    decodeSlots .little [⟨0x94, 0x01, 0x01, 0, 0x03, 0, 0, 0⟩] = .ok (.smod32K 1 0x00000003) ∧
    decodeSlots .little [⟨0x9c, 0x21, 0x01, 0, 0, 0, 0, 0⟩] = .ok (.smod32X 1 2) ∧
    decodeSlots .little [⟨0x97, 0x01, 0x01, 0, 0x03, 0, 0, 0⟩] = .ok (.smod64K 1 0x00000003) ∧
    decodeSlots .little [⟨0x9f, 0x21, 0x01, 0, 0, 0, 0, 0⟩] = .ok (.smod64X 1 2) ∧
    decodeSlots .little [⟨0xa4, 0x01, 0, 0, 0xff, 0xff, 0xff, 0xff⟩] = .ok (.xor32K 1 0xffffffff) ∧
    decodeSlots .little [⟨0xac, 0x21, 0, 0, 0, 0, 0, 0⟩] = .ok (.xor32X 1 2) :=
  ⟨rfl, rfl, rfl, rfl, rfl, rfl, rfl, rfl, rfl, rfl, rfl, rfl⟩

/-- The example bytes of 41_alu_neg_to_arsh.md. -/
theorem test_decode_neg_to_arsh_2 :
    decodeSlots .little [⟨0xa7, 0x01, 0, 0, 0xff, 0xff, 0xff, 0xff⟩] = .ok (.xor64K 1 0xffffffff) ∧
    decodeSlots .little [⟨0xaf, 0x21, 0, 0, 0, 0, 0, 0⟩] = .ok (.xor64X 1 2) ∧
    decodeSlots .little [⟨0xb4, 0x01, 0, 0, 0xff, 0xff, 0xff, 0xff⟩] = .ok (.mov32K 1 0xffffffff) ∧
    decodeSlots .little [⟨0xbc, 0x21, 0, 0, 0, 0, 0, 0⟩] = .ok (.mov32X 1 2) ∧
    decodeSlots .little [⟨0xb7, 0x01, 0, 0, 0xff, 0xff, 0xff, 0xff⟩] = .ok (.mov64K 1 0xffffffff) ∧
    decodeSlots .little [⟨0xbf, 0x21, 0, 0, 0, 0, 0, 0⟩] = .ok (.mov64X 1 2) ∧
    decodeSlots .little [⟨0xbc, 0x21, 0x08, 0, 0, 0, 0, 0⟩] = .ok (.movsx32_8 1 2) ∧
    decodeSlots .little [⟨0xbc, 0x21, 0x10, 0, 0, 0, 0, 0⟩] = .ok (.movsx32_16 1 2) ∧
    decodeSlots .little [⟨0xbf, 0x21, 0x08, 0, 0, 0, 0, 0⟩] = .ok (.movsx64_8 1 2) ∧
    decodeSlots .little [⟨0xbf, 0x21, 0x10, 0, 0, 0, 0, 0⟩] = .ok (.movsx64_16 1 2) ∧
    decodeSlots .little [⟨0xbf, 0x21, 0x20, 0, 0, 0, 0, 0⟩] = .ok (.movsx64_32 1 2) ∧
    decodeSlots .little [⟨0xc4, 0x01, 0, 0, 0x1f, 0, 0, 0⟩] = .ok (.arsh32K 1 0x0000001f) :=
  ⟨rfl, rfl, rfl, rfl, rfl, rfl, rfl, rfl, rfl, rfl, rfl, rfl⟩

/-- The example bytes of 41_alu_neg_to_arsh.md. -/
theorem test_decode_neg_to_arsh_3 :
    decodeSlots .little [⟨0xcc, 0x21, 0, 0, 0, 0, 0, 0⟩] = .ok (.arsh32X 1 2) ∧
    decodeSlots .little [⟨0xc7, 0x01, 0, 0, 0x3f, 0, 0, 0⟩] = .ok (.arsh64K 1 0x0000003f) ∧
    decodeSlots .little [⟨0xcf, 0x21, 0, 0, 0, 0, 0, 0⟩] = .ok (.arsh64X 1 2) :=
  ⟨rfl, rfl, rfl⟩

/-- The example bytes of 42_byteswap.md. -/
theorem test_decode_byteswap :
    decodeSlots .little [⟨0xd4, 0x01, 0, 0, 0x10, 0, 0, 0⟩] = .ok (.le16 1) ∧
    decodeSlots .big [⟨0xd4, 0x10, 0, 0, 0, 0, 0, 0x10⟩] = .ok (.le16 1) ∧
    decodeSlots .little [⟨0xd4, 0x01, 0, 0, 0x20, 0, 0, 0⟩] = .ok (.le32 1) ∧
    decodeSlots .big [⟨0xd4, 0x10, 0, 0, 0, 0, 0, 0x20⟩] = .ok (.le32 1) ∧
    decodeSlots .little [⟨0xd4, 0x01, 0, 0, 0x40, 0, 0, 0⟩] = .ok (.le64 1) ∧
    decodeSlots .big [⟨0xd4, 0x10, 0, 0, 0, 0, 0, 0x40⟩] = .ok (.le64 1) ∧
    decodeSlots .little [⟨0xdc, 0x01, 0, 0, 0x10, 0, 0, 0⟩] = .ok (.be16 1) ∧
    decodeSlots .big [⟨0xdc, 0x10, 0, 0, 0, 0, 0, 0x10⟩] = .ok (.be16 1) ∧
    decodeSlots .little [⟨0xdc, 0x01, 0, 0, 0x20, 0, 0, 0⟩] = .ok (.be32 1) ∧
    decodeSlots .big [⟨0xdc, 0x10, 0, 0, 0, 0, 0, 0x20⟩] = .ok (.be32 1) ∧
    decodeSlots .little [⟨0xdc, 0x01, 0, 0, 0x40, 0, 0, 0⟩] = .ok (.be64 1) ∧
    decodeSlots .big [⟨0xdc, 0x10, 0, 0, 0, 0, 0, 0x40⟩] = .ok (.be64 1) ∧
    decodeSlots .little [⟨0xd7, 0x01, 0, 0, 0x10, 0, 0, 0⟩] = .ok (.bswap16 1) ∧
    decodeSlots .big [⟨0xd7, 0x10, 0, 0, 0, 0, 0, 0x10⟩] = .ok (.bswap16 1) ∧
    decodeSlots .little [⟨0xd7, 0x01, 0, 0, 0x20, 0, 0, 0⟩] = .ok (.bswap32 1) ∧
    decodeSlots .big [⟨0xd7, 0x10, 0, 0, 0, 0, 0, 0x20⟩] = .ok (.bswap32 1) ∧
    decodeSlots .little [⟨0xd7, 0x01, 0, 0, 0x40, 0, 0, 0⟩] = .ok (.bswap64 1) ∧
    decodeSlots .big [⟨0xd7, 0x10, 0, 0, 0, 0, 0, 0x40⟩] = .ok (.bswap64 1) :=
  ⟨rfl, rfl, rfl, rfl, rfl, rfl, rfl, rfl, rfl, rfl, rfl, rfl, rfl, rfl, rfl, rfl, rfl, rfl⟩

/-- The example bytes of 43_jump.md. -/
theorem test_decode_jump_1 :
    decodeSlots .little [⟨0x05, 0, 0xfd, 0xff, 0, 0, 0, 0⟩] = .ok (.ja (-3)) ∧
    decodeSlots .little [⟨0x06, 0, 0, 0, 0, 0, 0x01, 0⟩] = .ok (.ja32 0x00010000) ∧
    decodeSlots .little [⟨0x15, 0x01, 0x03, 0, 0xff, 0xff, 0xff, 0xff⟩] = .ok (.jeq64K 1 3 0xffffffff) ∧
    decodeSlots .little [⟨0x1d, 0x21, 0x03, 0, 0, 0, 0, 0⟩] = .ok (.jeq64X 1 2 3) ∧
    decodeSlots .little [⟨0x16, 0x01, 0x03, 0, 0xff, 0xff, 0xff, 0xff⟩] = .ok (.jeq32K 1 3 0xffffffff) ∧
    decodeSlots .little [⟨0x1e, 0x21, 0x03, 0, 0, 0, 0, 0⟩] = .ok (.jeq32X 1 2 3) ∧
    decodeSlots .little [⟨0x25, 0x01, 0x03, 0, 0xff, 0xff, 0xff, 0xff⟩] = .ok (.jgt64K 1 3 0xffffffff) ∧
    decodeSlots .little [⟨0x2d, 0x21, 0x03, 0, 0, 0, 0, 0⟩] = .ok (.jgt64X 1 2 3) ∧
    decodeSlots .little [⟨0x26, 0x01, 0x03, 0, 0xff, 0xff, 0xff, 0x7f⟩] = .ok (.jgt32K 1 3 0x7fffffff) ∧
    decodeSlots .little [⟨0x2e, 0x21, 0x03, 0, 0, 0, 0, 0⟩] = .ok (.jgt32X 1 2 3) ∧
    decodeSlots .little [⟨0x35, 0x01, 0x03, 0, 0xfe, 0xff, 0xff, 0xff⟩] = .ok (.jge64K 1 3 0xfffffffe) ∧
    decodeSlots .little [⟨0x3d, 0x21, 0x03, 0, 0, 0, 0, 0⟩] = .ok (.jge64X 1 2 3) :=
  ⟨rfl, rfl, rfl, rfl, rfl, rfl, rfl, rfl, rfl, rfl, rfl, rfl⟩

/-- The example bytes of 43_jump.md. -/
theorem test_decode_jump_2 :
    decodeSlots .little [⟨0x36, 0x01, 0x03, 0, 0xff, 0xff, 0xff, 0xff⟩] = .ok (.jge32K 1 3 0xffffffff) ∧
    decodeSlots .little [⟨0x3e, 0x21, 0x03, 0, 0, 0, 0, 0⟩] = .ok (.jge32X 1 2 3) ∧
    decodeSlots .little [⟨0x45, 0x01, 0x03, 0, 0, 0, 0, 0x80⟩] = .ok (.jset64K 1 3 0x80000000) ∧
    decodeSlots .little [⟨0x4d, 0x21, 0x03, 0, 0, 0, 0, 0⟩] = .ok (.jset64X 1 2 3) ∧
    decodeSlots .little [⟨0x46, 0x01, 0x03, 0, 0xff, 0xff, 0xff, 0xff⟩] = .ok (.jset32K 1 3 0xffffffff) ∧
    decodeSlots .little [⟨0x4e, 0x21, 0x03, 0, 0, 0, 0, 0⟩] = .ok (.jset32X 1 2 3) ∧
    decodeSlots .little [⟨0x55, 0x01, 0x03, 0, 0xff, 0xff, 0xff, 0xff⟩] = .ok (.jne64K 1 3 0xffffffff) ∧
    decodeSlots .little [⟨0x5d, 0x21, 0x03, 0, 0, 0, 0, 0⟩] = .ok (.jne64X 1 2 3) ∧
    decodeSlots .little [⟨0x56, 0x01, 0x03, 0, 0xff, 0xff, 0xff, 0xff⟩] = .ok (.jne32K 1 3 0xffffffff) ∧
    decodeSlots .little [⟨0x5e, 0x21, 0x03, 0, 0, 0, 0, 0⟩] = .ok (.jne32X 1 2 3) ∧
    decodeSlots .little [⟨0x65, 0x01, 0x03, 0, 0xff, 0xff, 0xff, 0xff⟩] = .ok (.jsgt64K 1 3 0xffffffff) ∧
    decodeSlots .little [⟨0x6d, 0x21, 0x03, 0, 0, 0, 0, 0⟩] = .ok (.jsgt64X 1 2 3) :=
  ⟨rfl, rfl, rfl, rfl, rfl, rfl, rfl, rfl, rfl, rfl, rfl, rfl⟩

/-- The example bytes of 43_jump.md. -/
theorem test_decode_jump_3 :
    decodeSlots .little [⟨0x66, 0x01, 0x03, 0, 0, 0, 0, 0⟩] = .ok (.jsgt32K 1 3 0x00000000) ∧
    decodeSlots .little [⟨0x6e, 0x21, 0x03, 0, 0, 0, 0, 0⟩] = .ok (.jsgt32X 1 2 3) ∧
    decodeSlots .little [⟨0x75, 0x01, 0x03, 0, 0xff, 0xff, 0xff, 0xff⟩] = .ok (.jsge64K 1 3 0xffffffff) ∧
    decodeSlots .little [⟨0x7d, 0x21, 0x03, 0, 0, 0, 0, 0⟩] = .ok (.jsge64X 1 2 3) ∧
    decodeSlots .little [⟨0x76, 0x01, 0x03, 0, 0, 0, 0, 0x80⟩] = .ok (.jsge32K 1 3 0x80000000) ∧
    decodeSlots .little [⟨0x7e, 0x21, 0x03, 0, 0, 0, 0, 0⟩] = .ok (.jsge32X 1 2 3) ∧
    decodeSlots .little [⟨0xa5, 0x01, 0x03, 0, 0xff, 0xff, 0xff, 0xff⟩] = .ok (.jlt64K 1 3 0xffffffff) ∧
    decodeSlots .little [⟨0xad, 0x21, 0x03, 0, 0, 0, 0, 0⟩] = .ok (.jlt64X 1 2 3) ∧
    decodeSlots .little [⟨0xa6, 0x01, 0x03, 0, 0x01, 0, 0, 0⟩] = .ok (.jlt32K 1 3 0x00000001) ∧
    decodeSlots .little [⟨0xae, 0x21, 0x03, 0, 0, 0, 0, 0⟩] = .ok (.jlt32X 1 2 3) ∧
    decodeSlots .little [⟨0xb5, 0x01, 0x03, 0, 0xff, 0xff, 0xff, 0xff⟩] = .ok (.jle64K 1 3 0xffffffff) ∧
    decodeSlots .little [⟨0xbd, 0x21, 0x03, 0, 0, 0, 0, 0⟩] = .ok (.jle64X 1 2 3) :=
  ⟨rfl, rfl, rfl, rfl, rfl, rfl, rfl, rfl, rfl, rfl, rfl, rfl⟩

/-- The example bytes of 43_jump.md. -/
theorem test_decode_jump_4 :
    decodeSlots .little [⟨0xb6, 0x01, 0x03, 0, 0xff, 0xff, 0xff, 0xff⟩] = .ok (.jle32K 1 3 0xffffffff) ∧
    decodeSlots .little [⟨0xbe, 0x21, 0x03, 0, 0, 0, 0, 0⟩] = .ok (.jle32X 1 2 3) ∧
    decodeSlots .little [⟨0xc5, 0x01, 0x03, 0, 0, 0, 0, 0⟩] = .ok (.jslt64K 1 3 0x00000000) ∧
    decodeSlots .little [⟨0xcd, 0x21, 0x03, 0, 0, 0, 0, 0⟩] = .ok (.jslt64X 1 2 3) ∧
    decodeSlots .little [⟨0xc6, 0x01, 0x03, 0, 0, 0, 0, 0⟩] = .ok (.jslt32K 1 3 0x00000000) ∧
    decodeSlots .little [⟨0xce, 0x21, 0x03, 0, 0, 0, 0, 0⟩] = .ok (.jslt32X 1 2 3) ∧
    decodeSlots .little [⟨0xd5, 0x01, 0x03, 0, 0, 0, 0, 0x80⟩] = .ok (.jsle64K 1 3 0x80000000) ∧
    decodeSlots .little [⟨0xdd, 0x21, 0x03, 0, 0, 0, 0, 0⟩] = .ok (.jsle64X 1 2 3) ∧
    decodeSlots .little [⟨0xd6, 0x01, 0x03, 0, 0xff, 0xff, 0xff, 0x7f⟩] = .ok (.jsle32K 1 3 0x7fffffff) ∧
    decodeSlots .little [⟨0xde, 0x21, 0x03, 0, 0, 0, 0, 0⟩] = .ok (.jsle32X 1 2 3) :=
  ⟨rfl, rfl, rfl, rfl, rfl, rfl, rfl, rfl, rfl, rfl⟩

/-- The example bytes of 44_call_exit.md. -/
theorem test_decode_call_exit :
    decodeSlots .little [⟨0x85, 0, 0, 0, 0x07, 0, 0, 0⟩] = .ok (.callHelper 7) ∧
    decodeSlots .little [⟨0x85, 0x10, 0, 0, 0x03, 0, 0, 0⟩] = .ok (.callLocal 3) ∧
    decodeSlots .big [⟨0x85, 0x01, 0, 0, 0, 0, 0, 0x03⟩] = .ok (.callLocal 3) ∧
    decodeSlots .little [⟨0x85, 0x20, 0, 0, 0x64, 0, 0, 0⟩] = .ok (.callBtf 100) ∧
    decodeSlots .little [⟨0x95, 0, 0, 0, 0, 0, 0, 0⟩] = .ok .exit :=
  ⟨rfl, rfl, rfl, rfl, rfl⟩

/-- The example bytes of 45_load_store.md. -/
theorem test_decode_load_store_1 :
    decodeSlots .little [⟨0x61, 0x21, 0x08, 0, 0, 0, 0, 0⟩] = .ok (.ldxW 1 2 8) ∧
    decodeSlots .little [⟨0x69, 0x21, 0x08, 0, 0, 0, 0, 0⟩] = .ok (.ldxH 1 2 8) ∧
    decodeSlots .little [⟨0x71, 0x21, 0x08, 0, 0, 0, 0, 0⟩] = .ok (.ldxB 1 2 8) ∧
    decodeSlots .little [⟨0x79, 0x21, 0x08, 0, 0, 0, 0, 0⟩] = .ok (.ldxDw 1 2 8) ∧
    decodeSlots .little [⟨0x62, 0x01, 0xf8, 0xff, 0x67, 0x45, 0x23, 0x81⟩] = .ok (.stW 1 (-8) 0x81234567) ∧
    decodeSlots .little [⟨0x6a, 0x01, 0xf8, 0xff, 0x67, 0x45, 0x23, 0x81⟩] = .ok (.stH 1 (-8) 0x81234567) ∧
    decodeSlots .little [⟨0x72, 0x01, 0xf8, 0xff, 0x67, 0x45, 0x23, 0x81⟩] = .ok (.stB 1 (-8) 0x81234567) ∧
    decodeSlots .little [⟨0x7a, 0x01, 0xf8, 0xff, 0x67, 0x45, 0x23, 0x81⟩] = .ok (.stDw 1 (-8) 0x81234567) ∧
    decodeSlots .little [⟨0x63, 0x21, 0, 0, 0, 0, 0, 0⟩] = .ok (.stxW 1 2 0) ∧
    decodeSlots .little [⟨0x6b, 0x21, 0, 0, 0, 0, 0, 0⟩] = .ok (.stxH 1 2 0) ∧
    decodeSlots .little [⟨0x73, 0x21, 0, 0, 0, 0, 0, 0⟩] = .ok (.stxB 1 2 0) ∧
    decodeSlots .little [⟨0x7b, 0x21, 0, 0, 0, 0, 0, 0⟩] = .ok (.stxDw 1 2 0) :=
  ⟨rfl, rfl, rfl, rfl, rfl, rfl, rfl, rfl, rfl, rfl, rfl, rfl⟩

/-- The example bytes of 45_load_store.md. -/
theorem test_decode_load_store_2 :
    decodeSlots .little [⟨0x81, 0x21, 0, 0, 0, 0, 0, 0⟩] = .ok (.ldxsW 1 2 0) ∧
    decodeSlots .little [⟨0x89, 0x21, 0, 0, 0, 0, 0, 0⟩] = .ok (.ldxsH 1 2 0) ∧
    decodeSlots .little [⟨0x91, 0x21, 0, 0, 0, 0, 0, 0⟩] = .ok (.ldxsB 1 2 0) :=
  ⟨rfl, rfl, rfl⟩

/-- The example bytes of 46_atomic.md. -/
theorem test_decode_atomic_1 :
    decodeSlots .little [⟨0xc3, 0x21, 0, 0, 0, 0, 0, 0⟩] = .ok (.atomicAdd32 1 2 0) ∧
    decodeSlots .little [⟨0xc3, 0x21, 0, 0, 0x01, 0, 0, 0⟩] = .ok (.atomicFetchAdd32 1 2 0) ∧
    decodeSlots .little [⟨0xc3, 0x21, 0, 0, 0x40, 0, 0, 0⟩] = .ok (.atomicOr32 1 2 0) ∧
    decodeSlots .little [⟨0xc3, 0x21, 0, 0, 0x41, 0, 0, 0⟩] = .ok (.atomicFetchOr32 1 2 0) ∧
    decodeSlots .little [⟨0xc3, 0x21, 0, 0, 0x50, 0, 0, 0⟩] = .ok (.atomicAnd32 1 2 0) ∧
    decodeSlots .little [⟨0xc3, 0x21, 0, 0, 0x51, 0, 0, 0⟩] = .ok (.atomicFetchAnd32 1 2 0) ∧
    decodeSlots .little [⟨0xc3, 0x21, 0, 0, 0xa0, 0, 0, 0⟩] = .ok (.atomicXor32 1 2 0) ∧
    decodeSlots .little [⟨0xc3, 0x21, 0, 0, 0xa1, 0, 0, 0⟩] = .ok (.atomicFetchXor32 1 2 0) ∧
    decodeSlots .little [⟨0xc3, 0x21, 0, 0, 0xe1, 0, 0, 0⟩] = .ok (.atomicXchg32 1 2 0) ∧
    decodeSlots .little [⟨0xc3, 0x21, 0, 0, 0xf1, 0, 0, 0⟩] = .ok (.atomicCmpxchg32 1 2 0) ∧
    decodeSlots .little [⟨0xdb, 0x21, 0, 0, 0, 0, 0, 0⟩] = .ok (.atomicAdd64 1 2 0) ∧
    decodeSlots .little [⟨0xdb, 0x21, 0, 0, 0x01, 0, 0, 0⟩] = .ok (.atomicFetchAdd64 1 2 0) :=
  ⟨rfl, rfl, rfl, rfl, rfl, rfl, rfl, rfl, rfl, rfl, rfl, rfl⟩

/-- The example bytes of 46_atomic.md. -/
theorem test_decode_atomic_2 :
    decodeSlots .little [⟨0xdb, 0x21, 0, 0, 0x40, 0, 0, 0⟩] = .ok (.atomicOr64 1 2 0) ∧
    decodeSlots .little [⟨0xdb, 0x21, 0, 0, 0x41, 0, 0, 0⟩] = .ok (.atomicFetchOr64 1 2 0) ∧
    decodeSlots .little [⟨0xdb, 0x21, 0, 0, 0x50, 0, 0, 0⟩] = .ok (.atomicAnd64 1 2 0) ∧
    decodeSlots .little [⟨0xdb, 0x21, 0, 0, 0x51, 0, 0, 0⟩] = .ok (.atomicFetchAnd64 1 2 0) ∧
    decodeSlots .little [⟨0xdb, 0x21, 0, 0, 0xa0, 0, 0, 0⟩] = .ok (.atomicXor64 1 2 0) ∧
    decodeSlots .little [⟨0xdb, 0x21, 0, 0, 0xa1, 0, 0, 0⟩] = .ok (.atomicFetchXor64 1 2 0) ∧
    decodeSlots .little [⟨0xdb, 0x21, 0, 0, 0xe1, 0, 0, 0⟩] = .ok (.atomicXchg64 1 2 0) ∧
    decodeSlots .little [⟨0xdb, 0x21, 0, 0, 0xf1, 0, 0, 0⟩] = .ok (.atomicCmpxchg64 1 2 0) :=
  ⟨rfl, rfl, rfl, rfl, rfl, rfl, rfl, rfl⟩

/-- The example bytes of 47_imm64.md. -/
theorem test_decode_imm64 :
    decodeSlots .little [⟨0x18, 0x01, 0, 0, 0x88, 0x77, 0x66, 0x55⟩, ⟨0, 0, 0, 0, 0x44, 0x33, 0x22, 0x11⟩] = .ok (.lddw 1 0x55667788 0x11223344) ∧
    decodeSlots .big [⟨0x18, 0x10, 0, 0, 0x55, 0x66, 0x77, 0x88⟩, ⟨0, 0, 0, 0, 0x11, 0x22, 0x33, 0x44⟩] = .ok (.lddw 1 0x55667788 0x11223344) ∧
    decodeSlots .little [⟨0x18, 0x13, 0, 0, 0x05, 0, 0, 0⟩, ⟨0, 0, 0, 0, 0, 0, 0, 0⟩] = .ok (.ldMapFd 3 5) ∧
    decodeSlots .little [⟨0x18, 0x21, 0, 0, 0x05, 0, 0, 0⟩, ⟨0, 0, 0, 0, 0x10, 0, 0, 0⟩] = .ok (.ldMapValFd 1 5 16) ∧
    decodeSlots .little [⟨0x18, 0x31, 0, 0, 0x07, 0, 0, 0⟩, ⟨0, 0, 0, 0, 0, 0, 0, 0⟩] = .ok (.ldVarAddr 1 7) ∧
    decodeSlots .little [⟨0x18, 0x41, 0, 0, 0x07, 0, 0, 0⟩, ⟨0, 0, 0, 0, 0, 0, 0, 0⟩] = .ok (.ldCodeAddr 1 7) ∧
    decodeSlots .little [⟨0x18, 0x51, 0, 0, 0, 0, 0, 0⟩, ⟨0, 0, 0, 0, 0, 0, 0, 0⟩] = .ok (.ldMapIdx 1 0) ∧
    decodeSlots .little [⟨0x18, 0x61, 0, 0, 0, 0, 0, 0⟩, ⟨0, 0, 0, 0, 0x08, 0, 0, 0⟩] = .ok (.ldMapValIdx 1 0 8) ∧
    decodeSlots .little [⟨0, 0, 0, 0, 0x44, 0x33, 0x22, 0x11⟩] = .ok (.imm64Hi 0x11223344) ∧
    decodeSlots .big [⟨0, 0, 0, 0, 0x11, 0x22, 0x33, 0x44⟩] = .ok (.imm64Hi 0x11223344) :=
  ⟨rfl, rfl, rfl, rfl, rfl, rfl, rfl, rfl, rfl, rfl⟩

/-- The example bytes of 48_packet.md. -/
theorem test_decode_packet :
    decodeSlots .little [⟨0x20, 0, 0, 0, 0x0e, 0, 0, 0⟩] = .ok (.ldAbsW 14) ∧
    decodeSlots .little [⟨0x28, 0, 0, 0, 0x0e, 0, 0, 0⟩] = .ok (.ldAbsH 14) ∧
    decodeSlots .little [⟨0x30, 0, 0, 0, 0x0e, 0, 0, 0⟩] = .ok (.ldAbsB 14) ∧
    decodeSlots .little [⟨0x40, 0x70, 0, 0, 0x0e, 0, 0, 0⟩] = .ok (.ldIndW 7 14) ∧
    decodeSlots .little [⟨0x48, 0x70, 0, 0, 0x0e, 0, 0, 0⟩] = .ok (.ldIndH 7 14) ∧
    decodeSlots .little [⟨0x50, 0x70, 0, 0, 0x0e, 0, 0, 0⟩] = .ok (.ldIndB 7 14) :=
  ⟨rfl, rfl, rfl, rfl, rfl, rfl⟩

/-! ## Results: the spec's examples -/

/-- The examples of 40_alu_add_to_rsh.md, ADD. -/
theorem test_add :
    regAfter (.add32K 1 0x00000001) (start (some 0xdeadbeefffffffff) none) 1 = some 0x0000000000000000 ∧
    regAfter (.add32X 1 2) (start (some 0x0000000080000000) (some 0xffffffff80000000)) 1 = some 0x0000000000000000 ∧
    regAfter (.add64K 1 0xfffffffe) (start (some 0x0000000000000005) none) 1 = some 0x0000000000000003 ∧
    regAfter (.add64X 1 2) (start (some 0xffffffffffffffff) (some 0x0000000000000001)) 1 = some 0x0000000000000000 := by decide

/-- The examples of 40_alu_add_to_rsh.md, SUB. -/
theorem test_sub :
    regAfter (.sub32K 1 0x00000001) (start (some 0x0000000000000000) none) 1 = some 0x00000000ffffffff ∧
    regAfter (.sub32X 1 2) (start (some 0x0000000100000005) (some 0x0000000000000007)) 1 = some 0x00000000fffffffe ∧
    regAfter (.sub64K 1 0x00000001) (start (some 0x0000000000000000) none) 1 = some 0xffffffffffffffff ∧
    regAfter (.sub64X 1 2) (start (some 0x8000000000000000) (some 0x0000000000000001)) 1 = some 0x7fffffffffffffff := by decide

/-- The examples of 40_alu_add_to_rsh.md, MUL. -/
theorem test_mul :
    regAfter (.mul32K 1 0x00010000) (start (some 0x0000000000010000) none) 1 = some 0x0000000000000000 ∧
    regAfter (.mul32X 1 2) (start (some 0x00000000ffffffff) (some 0x00000000ffffffff)) 1 = some 0x0000000000000001 ∧
    regAfter (.mul64K 1 0xffffffff) (start (some 0x0000000000000003) none) 1 = some 0xfffffffffffffffd ∧
    regAfter (.mul64X 1 2) (start (some 0x0000000100000000) (some 0x0000000100000000)) 1 = some 0x0000000000000000 := by decide

/-- The examples of 40_alu_add_to_rsh.md, DIV. -/
theorem test_div :
    regAfter (.div32K 1 0xffffffff) (start (some 0xfffffffffffffffe) none) 1 = some 0x0000000000000000 ∧
    regAfter (.div32X 1 2) (start (some 0x0000000000000064) (some 0x0000000100000000)) 1 = some 0x0000000000000000 ∧
    regAfter (.div64K 1 0xffffffff) (start (some 0xfffffffffffffffe) none) 1 = some 0x0000000000000000 ∧
    regAfter (.div64X 1 2) (start (some 0x0000000000000064) (some 0x0000000000000007)) 1 = some 0x000000000000000e := by decide

/-- The examples of 40_alu_add_to_rsh.md, SDIV. -/
theorem test_sdiv :
    regAfter (.sdiv32K 1 0x00000003) (start (some 0x00000000fffffff3) none) 1 = some 0x00000000fffffffc ∧
    regAfter (.sdiv32X 1 2) (start (some 0x0000000080000000) (some 0x00000000ffffffff)) 1 = some 0x0000000080000000 ∧
    regAfter (.sdiv64K 1 0x00000003) (start (some 0xfffffffffffffff3) none) 1 = some 0xfffffffffffffffc ∧
    regAfter (.sdiv64X 1 2) (start (some 0x8000000000000000) (some 0xffffffffffffffff)) 1 = some 0x8000000000000000 := by decide

/-- The examples of 40_alu_add_to_rsh.md, OR. -/
theorem test_or :
    regAfter (.or32K 1 0x00000010) (start (some 0xffffffff00000001) none) 1 = some 0x0000000000000011 ∧
    regAfter (.or32X 1 2) (start (some 0x00000000f0f0f0f0) (some 0xaaaaaaaa0f0f0f0f)) 1 = some 0x00000000ffffffff ∧
    regAfter (.or64K 1 0x80000000) (start (some 0x0000000000000001) none) 1 = some 0xffffffff80000001 ∧
    regAfter (.or64X 1 2) (start (some 0xf0f0f0f000000000) (some 0x000000000f0f0f0f)) 1 = some 0xf0f0f0f00f0f0f0f := by decide

/-- The examples of 40_alu_add_to_rsh.md, AND. -/
theorem test_and :
    regAfter (.and32K 1 0x0000ffff) (start (some 0xffffffffffffffff) none) 1 = some 0x000000000000ffff ∧
    regAfter (.and32X 1 2) (start (some 0x12345678deadbeef) (some 0xffffffffffff0000)) 1 = some 0x00000000dead0000 ∧
    regAfter (.and64K 1 0xffffff00) (start (some 0x123456789abcdef0) none) 1 = some 0x123456789abcde00 ∧
    regAfter (.and64X 1 2) (start (some 0x123456789abcdef0) (some 0x00000000ffffffff)) 1 = some 0x000000009abcdef0 := by decide

/-- The examples of 40_alu_add_to_rsh.md, LSH. -/
theorem test_lsh :
    regAfter (.lsh32K 1 0x00000001) (start (some 0xffffffff80000001) none) 1 = some 0x0000000000000002 ∧
    regAfter (.lsh32X 1 2) (start (some 0x0000000000000001) (some 0x0000000000000021)) 1 = some 0x0000000000000002 ∧
    regAfter (.lsh64K 1 0x0000003f) (start (some 0x0000000000000001) none) 1 = some 0x8000000000000000 ∧
    regAfter (.lsh64X 1 2) (start (some 0x0000000000000001) (some 0x0000000000000040)) 1 = some 0x0000000000000001 := by decide

/-- The examples of 40_alu_add_to_rsh.md, RSH. -/
theorem test_rsh :
    regAfter (.rsh32K 1 0x0000001f) (start (some 0xffffffff80000000) none) 1 = some 0x0000000000000001 ∧
    regAfter (.rsh32X 1 2) (start (some 0x0000000080000000) (some 0x0000000000000020)) 1 = some 0x0000000080000000 ∧
    regAfter (.rsh64K 1 0x0000003f) (start (some 0x8000000000000000) none) 1 = some 0x0000000000000001 ∧
    regAfter (.rsh64X 1 2) (start (some 0xffffffffffffffff) (some 0x0000000000000041)) 1 = some 0x7fffffffffffffff := by decide

/-- The examples of 41_alu_neg_to_arsh.md, NEG. -/
theorem test_neg :
    regAfter (.neg32 1) (start (some 0xffffffff00000001) none) 1 = some 0x00000000ffffffff ∧
    regAfter (.neg64 1) (start (some 0x8000000000000000) none) 1 = some 0x8000000000000000 := by decide

/-- The examples of 41_alu_neg_to_arsh.md, MOD. -/
theorem test_mod :
    regAfter (.mod32K 1 0xffffffff) (start (some 0xfffffffffffffffe) none) 1 = some 0x00000000fffffffe ∧
    regAfter (.mod32X 1 2) (start (some 0xdeadbeef00000007) (some 0x0000000000000000)) 1 = some 0x0000000000000007 ∧
    regAfter (.mod64K 1 0xffffffff) (start (some 0xfffffffffffffffe) none) 1 = some 0xfffffffffffffffe ∧
    regAfter (.mod64X 1 2) (start (some 0xdeadbeef00000007) (some 0x0000000000000000)) 1 = some 0xdeadbeef00000007 := by decide

/-- The examples of 41_alu_neg_to_arsh.md, SMOD. -/
theorem test_smod :
    regAfter (.smod32K 1 0x00000003) (start (some 0x00000000fffffff3) none) 1 = some 0x00000000ffffffff ∧
    regAfter (.smod32X 1 2) (start (some 0x0000000080000000) (some 0x00000000ffffffff)) 1 = some 0x0000000000000000 ∧
    regAfter (.smod64K 1 0x00000003) (start (some 0xfffffffffffffff3) none) 1 = some 0xffffffffffffffff ∧
    regAfter (.smod64X 1 2) (start (some 0x000000000000000d) (some 0xfffffffffffffffd)) 1 = some 0x0000000000000001 := by decide

/-- The examples of 41_alu_neg_to_arsh.md, XOR. -/
theorem test_xor :
    regAfter (.xor32K 1 0xffffffff) (start (some 0xffffffff0000ffff) none) 1 = some 0x00000000ffff0000 ∧
    regAfter (.xor32X 1 2) (start (some 0x00000000ff00ff00) (some 0x123456780ff00ff0)) 1 = some 0x00000000f0f0f0f0 ∧
    regAfter (.xor64K 1 0xffffffff) (start (some 0x0000000000000000) none) 1 = some 0xffffffffffffffff ∧
    regAfter (.xor64X 1 2) (start (some 0x123456789abcdef0) (some 0x123456789abcdef0)) 1 = some 0x0000000000000000 := by decide

/-- The examples of 41_alu_neg_to_arsh.md, MOV. -/
theorem test_mov :
    regAfter (.mov32K 1 0xffffffff) (start none none) 1 = some 0x00000000ffffffff ∧
    regAfter (.mov32X 1 2) (start none (some 0x0123456789abcdef)) 1 = some 0x0000000089abcdef ∧
    regAfter (.mov64K 1 0xffffffff) (start none none) 1 = some 0xffffffffffffffff ∧
    regAfter (.mov64X 1 2) (start none (some 0x0123456789abcdef)) 1 = some 0x0123456789abcdef := by decide

/-- The examples of 41_alu_neg_to_arsh.md, MOVSX. -/
theorem test_movsx :
    regAfter (.movsx32_8 1 2) (start none (some 0x1234567812345680)) 1 = some 0x00000000ffffff80 ∧
    regAfter (.movsx32_16 1 2) (start none (some 0x0000000000018000)) 1 = some 0x00000000ffff8000 ∧
    regAfter (.movsx64_8 1 2) (start none (some 0x00000000000000ff)) 1 = some 0xffffffffffffffff ∧
    regAfter (.movsx64_16 1 2) (start none (some 0x0000000012348000)) 1 = some 0xffffffffffff8000 ∧
    regAfter (.movsx64_32 1 2) (start none (some 0x0000000180000000)) 1 = some 0xffffffff80000000 := by decide

/-- The examples of 41_alu_neg_to_arsh.md, ARSH. -/
theorem test_arsh :
    regAfter (.arsh32K 1 0x0000001f) (start (some 0x0000000080000000) none) 1 = some 0x00000000ffffffff ∧
    regAfter (.arsh32X 1 2) (start (some 0xffffffff40000000) (some 0x000000000000001e)) 1 = some 0x0000000000000001 ∧
    regAfter (.arsh64K 1 0x0000003f) (start (some 0x8000000000000000) none) 1 = some 0xffffffffffffffff ∧
    regAfter (.arsh64X 1 2) (start (some 0xfffffffffffffff0) (some 0x0000000000000042)) 1 = some 0xfffffffffffffffc := by decide

/-- The examples of 42_byteswap.md, LE. -/
theorem test_le :
    regAfter (.le16 1) (start (some 0x1122334455667788) none) 1 = some 0x0000000000007788 ∧
    regAfter (.le16 1) (onBig (start (some 0x1122334455667788) none)) 1 = some 0x0000000000008877 ∧
    regAfter (.le32 1) (start (some 0x1122334455667788) none) 1 = some 0x0000000055667788 ∧
    regAfter (.le32 1) (onBig (start (some 0x1122334455667788) none)) 1 = some 0x0000000088776655 ∧
    regAfter (.le64 1) (start (some 0x1122334455667788) none) 1 = some 0x1122334455667788 ∧
    regAfter (.le64 1) (onBig (start (some 0x1122334455667788) none)) 1 = some 0x8877665544332211 := by decide

/-- The examples of 42_byteswap.md, BE. -/
theorem test_be :
    regAfter (.be16 1) (start (some 0x1122334455667788) none) 1 = some 0x0000000000008877 ∧
    regAfter (.be16 1) (onBig (start (some 0x1122334455667788) none)) 1 = some 0x0000000000007788 ∧
    regAfter (.be32 1) (start (some 0x1122334455667788) none) 1 = some 0x0000000088776655 ∧
    regAfter (.be32 1) (onBig (start (some 0x1122334455667788) none)) 1 = some 0x0000000055667788 ∧
    regAfter (.be64 1) (start (some 0x1122334455667788) none) 1 = some 0x8877665544332211 ∧
    regAfter (.be64 1) (onBig (start (some 0x1122334455667788) none)) 1 = some 0x1122334455667788 := by decide

/-- The examples of 42_byteswap.md, BSWAP. -/
theorem test_bswap :
    regAfter (.bswap16 1) (start (some 0x1122334455667788) none) 1 = some 0x0000000000008877 ∧
    regAfter (.bswap16 1) (onBig (start (some 0x1122334455667788) none)) 1 = some 0x0000000000008877 ∧
    regAfter (.bswap32 1) (start (some 0x1122334455667788) none) 1 = some 0x0000000088776655 ∧
    regAfter (.bswap32 1) (onBig (start (some 0x1122334455667788) none)) 1 = some 0x0000000088776655 ∧
    regAfter (.bswap64 1) (start (some 0x1122334455667788) none) 1 = some 0x8877665544332211 ∧
    regAfter (.bswap64 1) (onBig (start (some 0x1122334455667788) none)) 1 = some 0x8877665544332211 := by decide

/-- The examples of 43_jump.md, JA. -/
theorem test_ja :
    pcAfter (.ja (-3)) ((start none none).jump 10) = some 8 ∧
    pcAfter (.ja32 0x00010000) (start none none) = some 65537 := by decide

/-- The examples of 43_jump.md, JEQ. -/
theorem test_jeq :
    pcAfter (.jeq64K 1 3 0xffffffff) (start (some 0xffffffffffffffff) none) = some 4 ∧
    pcAfter (.jeq64X 1 2 3) (start (some 0x0000000100000001) (some 0x0000000000000001)) = some 1 ∧
    pcAfter (.jeq32K 1 3 0xffffffff) (start (some 0x12345678ffffffff) none) = some 4 ∧
    pcAfter (.jeq32X 1 2 3) (start (some 0x0000000100000001) (some 0x0000000000000001)) = some 4 := by decide

/-- The examples of 43_jump.md, JGT. -/
theorem test_jgt :
    pcAfter (.jgt64K 1 3 0xffffffff) (start (some 0x0000000000000001) none) = some 1 ∧
    pcAfter (.jgt64X 1 2 3) (start (some 0xffffffffffffffff) (some 0x0000000000000001)) = some 4 ∧
    pcAfter (.jgt32K 1 3 0x7fffffff) (start (some 0x0000000080000000) none) = some 4 ∧
    pcAfter (.jgt32X 1 2 3) (start (some 0xffffffff00000001) (some 0x0000000000000002)) = some 1 := by decide

/-- The examples of 43_jump.md, JGE. -/
theorem test_jge :
    pcAfter (.jge64K 1 3 0xfffffffe) (start (some 0xfffffffffffffffe) none) = some 4 ∧
    pcAfter (.jge64X 1 2 3) (start (some 0x0000000000000000) (some 0x0000000000000001)) = some 1 ∧
    pcAfter (.jge32K 1 3 0xffffffff) (start (some 0x00000000ffffffff) none) = some 4 ∧
    pcAfter (.jge32X 1 2 3) (start (some 0x0000000100000000) (some 0x0000000000000001)) = some 1 := by decide

/-- The examples of 43_jump.md, JSET. -/
theorem test_jset :
    pcAfter (.jset64K 1 3 0x80000000) (start (some 0x8000000000000000) none) = some 4 ∧
    pcAfter (.jset64X 1 2 3) (start (some 0x00000000000000f0) (some 0x000000000000000f)) = some 1 ∧
    pcAfter (.jset32K 1 3 0xffffffff) (start (some 0x8000000000000000) none) = some 1 ∧
    pcAfter (.jset32X 1 2 3) (start (some 0x0000000000000010) (some 0x0000000000000030)) = some 4 := by decide

/-- The examples of 43_jump.md, JNE. -/
theorem test_jne :
    pcAfter (.jne64K 1 3 0xffffffff) (start (some 0x00000000ffffffff) none) = some 4 ∧
    pcAfter (.jne64X 1 2 3) (start (some 0x0000000000000007) (some 0x0000000000000007)) = some 1 ∧
    pcAfter (.jne32K 1 3 0xffffffff) (start (some 0x00000000ffffffff) none) = some 1 ∧
    pcAfter (.jne32X 1 2 3) (start (some 0x0000000100000005) (some 0x0000000000000005)) = some 1 := by decide

/-- The examples of 43_jump.md, JSGT. -/
theorem test_jsgt :
    pcAfter (.jsgt64K 1 3 0xffffffff) (start (some 0x0000000000000000) none) = some 4 ∧
    pcAfter (.jsgt64X 1 2 3) (start (some 0x8000000000000000) (some 0x0000000000000000)) = some 1 ∧
    pcAfter (.jsgt32K 1 3 0x00000000) (start (some 0x00000000ffffffff) none) = some 1 ∧
    pcAfter (.jsgt32X 1 2 3) (start (some 0x000000007fffffff) (some 0x0000000080000000)) = some 4 := by decide

/-- The examples of 43_jump.md, JSGE. -/
theorem test_jsge :
    pcAfter (.jsge64K 1 3 0xffffffff) (start (some 0xffffffffffffffff) none) = some 4 ∧
    pcAfter (.jsge64X 1 2 3) (start (some 0xffffffffffffffff) (some 0x0000000000000000)) = some 1 ∧
    pcAfter (.jsge32K 1 3 0x80000000) (start (some 0x0000000080000000) none) = some 4 ∧
    pcAfter (.jsge32X 1 2 3) (start (some 0xffffffff80000000) (some 0x000000007fffffff)) = some 1 := by decide

/-- The examples of 43_jump.md, JLT. -/
theorem test_jlt :
    pcAfter (.jlt64K 1 3 0xffffffff) (start (some 0x0000000000000001) none) = some 4 ∧
    pcAfter (.jlt64X 1 2 3) (start (some 0xffffffffffffffff) (some 0x0000000000000000)) = some 1 ∧
    pcAfter (.jlt32K 1 3 0x00000001) (start (some 0x0000000100000000) none) = some 4 ∧
    pcAfter (.jlt32X 1 2 3) (start (some 0x00000000ffffffff) (some 0x0000000000000000)) = some 1 := by decide

/-- The examples of 43_jump.md, JLE. -/
theorem test_jle :
    pcAfter (.jle64K 1 3 0xffffffff) (start (some 0xffffffffffffffff) none) = some 4 ∧
    pcAfter (.jle64X 1 2 3) (start (some 0x0000000000000002) (some 0x0000000000000001)) = some 1 ∧
    pcAfter (.jle32K 1 3 0xffffffff) (start (some 0x00000000ffffffff) none) = some 4 ∧
    pcAfter (.jle32X 1 2 3) (start (some 0xffffffff00000002) (some 0x0000000000000001)) = some 1 := by decide

/-- The examples of 43_jump.md, JSLT. -/
theorem test_jslt :
    pcAfter (.jslt64K 1 3 0x00000000) (start (some 0xffffffffffffffff) none) = some 4 ∧
    pcAfter (.jslt64X 1 2 3) (start (some 0x0000000000000000) (some 0x8000000000000000)) = some 1 ∧
    pcAfter (.jslt32K 1 3 0x00000000) (start (some 0x00000000ffffffff) none) = some 4 ∧
    pcAfter (.jslt32X 1 2 3) (start (some 0x000000007fffffff) (some 0x0000000080000000)) = some 1 := by decide

/-- The examples of 43_jump.md, JSLE. -/
theorem test_jsle :
    pcAfter (.jsle64K 1 3 0x80000000) (start (some 0x8000000000000000) none) = some 4 ∧
    pcAfter (.jsle64X 1 2 3) (start (some 0x0000000000000001) (some 0x0000000000000000)) = some 1 ∧
    pcAfter (.jsle32K 1 3 0x7fffffff) (start (some 0x0000000080000000) none) = some 4 ∧
    pcAfter (.jsle32X 1 2 3) (start (some 0x0000000000000000) (some 0x00000000ffffffff)) = some 1 := by decide

/-- The examples of 45_load_store.md, LDX. -/
theorem test_ldx :
    regAfter (.ldxW 1 2 8) (holding 0x1000 loadBytes (start none (some 0x0000000000000ff8))) 1 = some 0x00000000bbaa9988 ∧
    regAfter (.ldxW 1 2 8) (holding 0x1000 loadBytes (onBig (start none (some 0x0000000000000ff8)))) 1 = some 0x000000008899aabb ∧
    regAfter (.ldxH 1 2 8) (holding 0x1000 loadBytes (start none (some 0x0000000000000ff8))) 1 = some 0x0000000000009988 ∧
    regAfter (.ldxH 1 2 8) (holding 0x1000 loadBytes (onBig (start none (some 0x0000000000000ff8)))) 1 = some 0x0000000000008899 ∧
    regAfter (.ldxB 1 2 8) (holding 0x1000 loadBytes (start none (some 0x0000000000000ff8))) 1 = some 0x0000000000000088 ∧
    regAfter (.ldxB 1 2 8) (holding 0x1000 loadBytes (onBig (start none (some 0x0000000000000ff8)))) 1 = some 0x0000000000000088 ∧
    regAfter (.ldxDw 1 2 8) (holding 0x1000 loadBytes (start none (some 0x0000000000000ff8))) 1 = some 0xffeeddccbbaa9988 ∧
    regAfter (.ldxDw 1 2 8) (holding 0x1000 loadBytes (onBig (start none (some 0x0000000000000ff8)))) 1 = some 0x8899aabbccddeeff := by decide

/-- The examples of 45_load_store.md, ST. -/
theorem test_st :
    bytesAfter (.stW 1 (-8) 0x81234567) (start (some 0x0000000000001008) none) 0x1000 = [0x67, 0x45, 0x23, 0x81, 0, 0, 0, 0] ∧
    bytesAfter (.stW 1 (-8) 0x81234567) (onBig (start (some 0x0000000000001008) none)) 0x1000 = [0x81, 0x23, 0x45, 0x67, 0, 0, 0, 0] ∧
    bytesAfter (.stH 1 (-8) 0x81234567) (start (some 0x0000000000001008) none) 0x1000 = [0x67, 0x45, 0, 0, 0, 0, 0, 0] ∧
    bytesAfter (.stH 1 (-8) 0x81234567) (onBig (start (some 0x0000000000001008) none)) 0x1000 = [0x45, 0x67, 0, 0, 0, 0, 0, 0] ∧
    bytesAfter (.stB 1 (-8) 0x81234567) (start (some 0x0000000000001008) none) 0x1000 = [0x67, 0, 0, 0, 0, 0, 0, 0] ∧
    bytesAfter (.stB 1 (-8) 0x81234567) (onBig (start (some 0x0000000000001008) none)) 0x1000 = [0x67, 0, 0, 0, 0, 0, 0, 0] ∧
    bytesAfter (.stDw 1 (-8) 0x81234567) (start (some 0x0000000000001008) none) 0x1000 = [0x67, 0x45, 0x23, 0x81, 0xff, 0xff, 0xff, 0xff] ∧
    bytesAfter (.stDw 1 (-8) 0x81234567) (onBig (start (some 0x0000000000001008) none)) 0x1000 = [0xff, 0xff, 0xff, 0xff, 0x81, 0x23, 0x45, 0x67] := by decide

/-- The examples of 45_load_store.md, STX. -/
theorem test_stx :
    bytesAfter (.stxW 1 2 0) (start (some 0x0000000000001000) (some 0x1122334455667788)) 0x1000 = [0x88, 0x77, 0x66, 0x55, 0, 0, 0, 0] ∧
    bytesAfter (.stxW 1 2 0) (onBig (start (some 0x0000000000001000) (some 0x1122334455667788))) 0x1000 = [0x55, 0x66, 0x77, 0x88, 0, 0, 0, 0] ∧
    bytesAfter (.stxH 1 2 0) (start (some 0x0000000000001000) (some 0x1122334455667788)) 0x1000 = [0x88, 0x77, 0, 0, 0, 0, 0, 0] ∧
    bytesAfter (.stxH 1 2 0) (onBig (start (some 0x0000000000001000) (some 0x1122334455667788))) 0x1000 = [0x77, 0x88, 0, 0, 0, 0, 0, 0] ∧
    bytesAfter (.stxB 1 2 0) (start (some 0x0000000000001000) (some 0x1122334455667788)) 0x1000 = [0x88, 0, 0, 0, 0, 0, 0, 0] ∧
    bytesAfter (.stxB 1 2 0) (onBig (start (some 0x0000000000001000) (some 0x1122334455667788))) 0x1000 = [0x88, 0, 0, 0, 0, 0, 0, 0] ∧
    bytesAfter (.stxDw 1 2 0) (start (some 0x0000000000001000) (some 0x1122334455667788)) 0x1000 = [0x88, 0x77, 0x66, 0x55, 0x44, 0x33, 0x22, 0x11] ∧
    bytesAfter (.stxDw 1 2 0) (onBig (start (some 0x0000000000001000) (some 0x1122334455667788))) 0x1000 = [0x11, 0x22, 0x33, 0x44, 0x55, 0x66, 0x77, 0x88] := by decide

/-- The examples of 45_load_store.md, LDXS. -/
theorem test_ldxs :
    regAfter (.ldxsW 1 2 0) (holding 0x1000 loadBytes (start none (some 0x0000000000001000))) 1 = some 0xffffffffbbaa9988 ∧
    regAfter (.ldxsW 1 2 0) (holding 0x1000 (0x7f :: loadBytes.tail) (onBig (start none (some 0x0000000000001000)))) 1 = some 0x000000007f99aabb ∧
    regAfter (.ldxsH 1 2 0) (holding 0x1000 loadBytes (start none (some 0x0000000000001000))) 1 = some 0xffffffffffff9988 ∧
    regAfter (.ldxsH 1 2 0) (holding 0x1000 (0x7f :: loadBytes.tail) (onBig (start none (some 0x0000000000001000)))) 1 = some 0x0000000000007f99 ∧
    regAfter (.ldxsB 1 2 0) (holding 0x1000 loadBytes (start none (some 0x0000000000001000))) 1 = some 0xffffffffffffff88 ∧
    regAfter (.ldxsB 1 2 0) (holding 0x1000 (0x7f :: loadBytes.tail) (onBig (start none (some 0x0000000000001000)))) 1 = some 0x000000000000007f := by decide

/-- The examples of 46_atomic.md, ATOMIC ADD. -/
theorem test_atomic_add :
    bytesAfter (.atomicAdd32 1 2 0) (holding 0x2000 atomicBytes (start (some 0x0000000000002000) (some 0xaaaaaaaa000000ff))) 0x2000 = [0xef, 0, 0, 0, 0x0f, 0, 0, 0x80] ∧
    regAfter (.atomicAdd32 1 2 0) (holding 0x2000 atomicBytes (start (some 0x0000000000002000) (some 0xaaaaaaaa000000ff))) 2 = some 0xaaaaaaaa000000ff ∧
    bytesAfter (.atomicFetchAdd32 1 2 0) (holding 0x2000 atomicBytes (start (some 0x0000000000002000) (some 0xaaaaaaaa000000ff))) 0x2000 = [0xef, 0, 0, 0, 0x0f, 0, 0, 0x80] ∧
    regAfter (.atomicFetchAdd32 1 2 0) (holding 0x2000 atomicBytes (start (some 0x0000000000002000) (some 0xaaaaaaaa000000ff))) 2 = some 0x00000000fffffff0 ∧
    bytesAfter (.atomicAdd64 1 2 0) (holding 0x2000 atomicBytes (start (some 0x0000000000002000) (some 0xaaaaaaaa000000ff))) 0x2000 = [0xef, 0, 0, 0, 0xba, 0xaa, 0xaa, 0x2a] ∧
    regAfter (.atomicAdd64 1 2 0) (holding 0x2000 atomicBytes (start (some 0x0000000000002000) (some 0xaaaaaaaa000000ff))) 2 = some 0xaaaaaaaa000000ff ∧
    bytesAfter (.atomicFetchAdd64 1 2 0) (holding 0x2000 atomicBytes (start (some 0x0000000000002000) (some 0xaaaaaaaa000000ff))) 0x2000 = [0xef, 0, 0, 0, 0xba, 0xaa, 0xaa, 0x2a] ∧
    regAfter (.atomicFetchAdd64 1 2 0) (holding 0x2000 atomicBytes (start (some 0x0000000000002000) (some 0xaaaaaaaa000000ff))) 2 = some 0x8000000ffffffff0 := by decide

/-- The examples of 46_atomic.md, ATOMIC OR. -/
theorem test_atomic_or :
    bytesAfter (.atomicOr32 1 2 0) (holding 0x2000 atomicBytes (start (some 0x0000000000002000) (some 0xaaaaaaaa000000ff))) 0x2000 = [0xff, 0xff, 0xff, 0xff, 0x0f, 0, 0, 0x80] ∧
    regAfter (.atomicOr32 1 2 0) (holding 0x2000 atomicBytes (start (some 0x0000000000002000) (some 0xaaaaaaaa000000ff))) 2 = some 0xaaaaaaaa000000ff ∧
    bytesAfter (.atomicFetchOr32 1 2 0) (holding 0x2000 atomicBytes (start (some 0x0000000000002000) (some 0xaaaaaaaa000000ff))) 0x2000 = [0xff, 0xff, 0xff, 0xff, 0x0f, 0, 0, 0x80] ∧
    regAfter (.atomicFetchOr32 1 2 0) (holding 0x2000 atomicBytes (start (some 0x0000000000002000) (some 0xaaaaaaaa000000ff))) 2 = some 0x00000000fffffff0 ∧
    bytesAfter (.atomicOr64 1 2 0) (holding 0x2000 atomicBytes (start (some 0x0000000000002000) (some 0xaaaaaaaa000000ff))) 0x2000 = [0xff, 0xff, 0xff, 0xff, 0xaf, 0xaa, 0xaa, 0xaa] ∧
    regAfter (.atomicOr64 1 2 0) (holding 0x2000 atomicBytes (start (some 0x0000000000002000) (some 0xaaaaaaaa000000ff))) 2 = some 0xaaaaaaaa000000ff ∧
    bytesAfter (.atomicFetchOr64 1 2 0) (holding 0x2000 atomicBytes (start (some 0x0000000000002000) (some 0xaaaaaaaa000000ff))) 0x2000 = [0xff, 0xff, 0xff, 0xff, 0xaf, 0xaa, 0xaa, 0xaa] ∧
    regAfter (.atomicFetchOr64 1 2 0) (holding 0x2000 atomicBytes (start (some 0x0000000000002000) (some 0xaaaaaaaa000000ff))) 2 = some 0x8000000ffffffff0 := by decide

/-- The examples of 46_atomic.md, ATOMIC AND. -/
theorem test_atomic_and :
    bytesAfter (.atomicAnd32 1 2 0) (holding 0x2000 atomicBytes (start (some 0x0000000000002000) (some 0xaaaaaaaa000000ff))) 0x2000 = [0xf0, 0, 0, 0, 0x0f, 0, 0, 0x80] ∧
    regAfter (.atomicAnd32 1 2 0) (holding 0x2000 atomicBytes (start (some 0x0000000000002000) (some 0xaaaaaaaa000000ff))) 2 = some 0xaaaaaaaa000000ff ∧
    bytesAfter (.atomicFetchAnd32 1 2 0) (holding 0x2000 atomicBytes (start (some 0x0000000000002000) (some 0xaaaaaaaa000000ff))) 0x2000 = [0xf0, 0, 0, 0, 0x0f, 0, 0, 0x80] ∧
    regAfter (.atomicFetchAnd32 1 2 0) (holding 0x2000 atomicBytes (start (some 0x0000000000002000) (some 0xaaaaaaaa000000ff))) 2 = some 0x00000000fffffff0 ∧
    bytesAfter (.atomicAnd64 1 2 0) (holding 0x2000 atomicBytes (start (some 0x0000000000002000) (some 0xaaaaaaaa000000ff))) 0x2000 = [0xf0, 0, 0, 0, 0x0a, 0, 0, 0x80] ∧
    regAfter (.atomicAnd64 1 2 0) (holding 0x2000 atomicBytes (start (some 0x0000000000002000) (some 0xaaaaaaaa000000ff))) 2 = some 0xaaaaaaaa000000ff ∧
    bytesAfter (.atomicFetchAnd64 1 2 0) (holding 0x2000 atomicBytes (start (some 0x0000000000002000) (some 0xaaaaaaaa000000ff))) 0x2000 = [0xf0, 0, 0, 0, 0x0a, 0, 0, 0x80] ∧
    regAfter (.atomicFetchAnd64 1 2 0) (holding 0x2000 atomicBytes (start (some 0x0000000000002000) (some 0xaaaaaaaa000000ff))) 2 = some 0x8000000ffffffff0 := by decide

/-- The examples of 46_atomic.md, ATOMIC XOR. -/
theorem test_atomic_xor :
    bytesAfter (.atomicXor32 1 2 0) (holding 0x2000 atomicBytes (start (some 0x0000000000002000) (some 0xaaaaaaaa000000ff))) 0x2000 = [0x0f, 0xff, 0xff, 0xff, 0x0f, 0, 0, 0x80] ∧
    regAfter (.atomicXor32 1 2 0) (holding 0x2000 atomicBytes (start (some 0x0000000000002000) (some 0xaaaaaaaa000000ff))) 2 = some 0xaaaaaaaa000000ff ∧
    bytesAfter (.atomicFetchXor32 1 2 0) (holding 0x2000 atomicBytes (start (some 0x0000000000002000) (some 0xaaaaaaaa000000ff))) 0x2000 = [0x0f, 0xff, 0xff, 0xff, 0x0f, 0, 0, 0x80] ∧
    regAfter (.atomicFetchXor32 1 2 0) (holding 0x2000 atomicBytes (start (some 0x0000000000002000) (some 0xaaaaaaaa000000ff))) 2 = some 0x00000000fffffff0 ∧
    bytesAfter (.atomicXor64 1 2 0) (holding 0x2000 atomicBytes (start (some 0x0000000000002000) (some 0xaaaaaaaa000000ff))) 0x2000 = [0x0f, 0xff, 0xff, 0xff, 0xa5, 0xaa, 0xaa, 0x2a] ∧
    regAfter (.atomicXor64 1 2 0) (holding 0x2000 atomicBytes (start (some 0x0000000000002000) (some 0xaaaaaaaa000000ff))) 2 = some 0xaaaaaaaa000000ff ∧
    bytesAfter (.atomicFetchXor64 1 2 0) (holding 0x2000 atomicBytes (start (some 0x0000000000002000) (some 0xaaaaaaaa000000ff))) 0x2000 = [0x0f, 0xff, 0xff, 0xff, 0xa5, 0xaa, 0xaa, 0x2a] ∧
    regAfter (.atomicFetchXor64 1 2 0) (holding 0x2000 atomicBytes (start (some 0x0000000000002000) (some 0xaaaaaaaa000000ff))) 2 = some 0x8000000ffffffff0 := by decide

/-- The examples of 46_atomic.md, ATOMIC XCHG. -/
theorem test_atomic_xchg :
    bytesAfter (.atomicXchg32 1 2 0) (holding 0x2000 atomicBytes (start (some 0x0000000000002000) (some 0xaaaaaaaa000000ff))) 0x2000 = [0xff, 0, 0, 0, 0x0f, 0, 0, 0x80] ∧
    regAfter (.atomicXchg32 1 2 0) (holding 0x2000 atomicBytes (start (some 0x0000000000002000) (some 0xaaaaaaaa000000ff))) 2 = some 0x00000000fffffff0 ∧
    bytesAfter (.atomicXchg64 1 2 0) (holding 0x2000 atomicBytes (start (some 0x0000000000002000) (some 0xaaaaaaaa000000ff))) 0x2000 = [0xff, 0, 0, 0, 0xaa, 0xaa, 0xaa, 0xaa] ∧
    regAfter (.atomicXchg64 1 2 0) (holding 0x2000 atomicBytes (start (some 0x0000000000002000) (some 0xaaaaaaaa000000ff))) 2 = some 0x8000000ffffffff0 := by decide

/-- The examples of 46_atomic.md, ATOMIC CMPXCHG. -/
theorem test_atomic_cmpxchg :
    bytesAfter (.atomicCmpxchg32 1 2 0) (holding 0x2000 atomicBytes ((start (some 0x0000000000002000) (some 0x1111111122222222)).setReg 0 0x55555555fffffff0)) 0x2000 = [0x22, 0x22, 0x22, 0x22, 0x0f, 0, 0, 0x80] ∧
    regAfter (.atomicCmpxchg32 1 2 0) (holding 0x2000 atomicBytes ((start (some 0x0000000000002000) (some 0x1111111122222222)).setReg 0 0x55555555fffffff0)) 0 = some 0x00000000fffffff0 ∧
    regAfter (.atomicCmpxchg32 1 2 0) (holding 0x2000 atomicBytes ((start (some 0x0000000000002000) (some 0x1111111122222222)).setReg 0 0x55555555fffffff0)) 2 = some 0x1111111122222222 ∧
    bytesAfter (.atomicCmpxchg32 1 2 0) (holding 0x2000 atomicBytes ((start (some 0x0000000000002000) (some 0x1111111122222222)).setReg 0 1)) 0x2000 = atomicBytes ∧
    regAfter (.atomicCmpxchg32 1 2 0) (holding 0x2000 atomicBytes ((start (some 0x0000000000002000) (some 0x1111111122222222)).setReg 0 1)) 0 = some 0x00000000fffffff0 ∧
    bytesAfter (.atomicCmpxchg64 1 2 0) (holding 0x2000 atomicBytes ((start (some 0x0000000000002000) (some 0x1111111122222222)).setReg 0 0x8000000ffffffff0)) 0x2000 = [0x22, 0x22, 0x22, 0x22, 0x11, 0x11, 0x11, 0x11] ∧
    regAfter (.atomicCmpxchg64 1 2 0) (holding 0x2000 atomicBytes ((start (some 0x0000000000002000) (some 0x1111111122222222)).setReg 0 0x8000000ffffffff0)) 0 = some 0x8000000ffffffff0 ∧
    regAfter (.atomicCmpxchg64 1 2 0) (holding 0x2000 atomicBytes ((start (some 0x0000000000002000) (some 0x1111111122222222)).setReg 0 0x8000000ffffffff0)) 2 = some 0x1111111122222222 ∧
    bytesAfter (.atomicCmpxchg64 1 2 0) (holding 0x2000 atomicBytes ((start (some 0x0000000000002000) (some 0x1111111122222222)).setReg 0 1)) 0x2000 = atomicBytes ∧
    regAfter (.atomicCmpxchg64 1 2 0) (holding 0x2000 atomicBytes ((start (some 0x0000000000002000) (some 0x1111111122222222)).setReg 0 1)) 0 = some 0x8000000ffffffff0 := by decide

/-! ## Ill-formed terms are refused -/

theorem test_wf_dst_refused : (Instr.add32K 11 0).wellFormed = false := by decide
theorem test_wf_src_refused : (Instr.add32X 0 11).wellFormed = false := by decide
theorem test_wf_dst_of_pair_refused : (Instr.stxW 15 0 0).wellFormed = false := by decide
theorem test_wf_src_alone_refused : (Instr.ldIndW 12 0).wellFormed = false := by decide
theorem test_wf_wide_dst_refused : (Instr.lddw 11 0 0).wellFormed = false := by decide
theorem test_wf_highest_register : (Instr.add32X 10 10).wellFormed = true := by decide

/-! ## Slots that are no instruction (the illegal vectors of 95_test_vectors.md) -/

/-- V82, V83, V119, V120, V159, V160, V161, V180, V181, V182, V200, V201, V206, V207, V208, V211, V212, V213. -/
theorem test_unknown_encodings :
    ([⟨0xd4, 1, 0, 0, 8, 0, 0, 0⟩, ⟨0xdf, 1, 0, 0, 16, 0, 0, 0⟩, ⟨0x8d, 0, 0, 0, 0, 0, 0, 0⟩,
      ⟨0x95, 0, 0, 0, 1, 0, 0, 0⟩, ⟨0x61, 0x21, 0, 0, 1, 0, 0, 0⟩, ⟨0x62, 0x21, 0, 0, 1, 0, 0, 0⟩,
      ⟨0x99, 0x21, 0, 0, 0, 0, 0, 0⟩, ⟨0xdb, 0x21, 0, 0, 0xe0, 0, 0, 0⟩, ⟨0xdb, 0x21, 0, 0, 0x10, 0, 0, 0⟩,
      ⟨0xcb, 0x21, 0, 0, 0, 0, 0, 0⟩, ⟨0x18, 0x71, 0, 0, 3, 0, 0, 0⟩, ⟨0x18, 0x01, 1, 0, 3, 0, 0, 0⟩,
      ⟨0x20, 0x01, 0, 0, 14, 0, 0, 0⟩, ⟨0x20, 0x10, 0, 0, 14, 0, 0, 0⟩, ⟨0x38, 0, 0, 0, 0, 0, 0, 0⟩,
      ⟨0x07, 0x21, 0, 0, 1, 0, 0, 0⟩, ⟨0x0f, 0x21, 0, 0, 1, 0, 0, 0⟩, ⟨0x07, 0x01, 1, 0, 1, 0, 0, 0⟩] : List Slot).map
      (fun s => decodeSlots .little [s, ⟨0, 0, 0, 0, 0, 0, 0, 0⟩]) = List.replicate 18 (.error .unknownEncoding) := rfl

/-- V209, V210. -/
theorem test_register_numbers_refused :
    decodeSlots .little [⟨0x07, 0x0b, 0, 0, 1, 0, 0, 0⟩] = .error .badRegister ∧
    decodeSlots .little [⟨0x0f, 0xc1, 0, 0, 0, 0, 0, 0⟩] = .error .badRegister := ⟨rfl, rfl⟩

/-- V197, V198, V199, V202. -/
theorem test_second_slots_refused :
    decodeSlots .little [⟨0x18, 0x11, 0, 0, 3, 0, 0, 0⟩, ⟨0, 0, 0, 0, 1, 0, 0, 0⟩] = .error .badSecondSlot ∧
    decodeSlots .little [⟨0x18, 0x01, 0, 0, 3, 0, 0, 0⟩, ⟨0, 1, 0, 0, 0, 0, 0, 0⟩] = .error .badSecondSlot ∧
    decodeSlots .little [⟨0x18, 0x01, 0, 0, 3, 0, 0, 0⟩, ⟨0x95, 0, 0, 0, 0, 0, 0, 0⟩] = .error .badSecondSlot ∧
    decodeSlots .little [⟨0x18, 0x01, 0, 0, 3, 0, 0, 0⟩] = .error .missingSecondSlot := ⟨rfl, rfl, rfl, rfl⟩

/-! ## Calls, EXIT, 64-bit immediates, packet instructions -/

/-- What a function answers in every state. -/
def always (a : Answer) : List PlatformRule := [⟨[], [], a⟩]

/-- A platform with a helper that writes 42 to r0, one that fails, one that toggles r0 between 0 and 1, and the lookups
of the examples. -/
def platform : Params :=
  { defaultParams with
    callDepthMax := some 1
    platform := [⟨.helper .staticId 7, always (.returns [(0, some 42)] [])⟩, ⟨.helper .staticId 8, always .fails⟩,
      ⟨.helper .btfId 9, [⟨[(0, some 0)], [(0x1000, 0)], .returns [(0, some 1)] []⟩,
        ⟨[(0, some 1)], [(0x1000, 0)], .returns [(0, some 0)] []⟩]⟩,
      ⟨.packet .abs .w 0 14, always (.returns [(0, some 5)] [(0x1000, 9)])⟩,
      ⟨.packet .ind .b 7 14, always (.returns [(0, some 6), (1, none)] [])⟩]
    mapByFd := [(5, 0xffff800000010000)]
    mapByIdx := [(0, 0xffff800000020000)]
    mapVal := [(0xffff800000010000, 0x7000), (0xffff800000020000, 0x7000)]
    varAddr := [(7, 0x9000)]
    codeAddr := [((0, 7), 0x400038)] }

/-- The examples of 44_call_exit.md, CALL_HELPER and CALL_BTF. -/
theorem test_call_helper :
    regAfter (.callHelper 7) (withParams platform ((start none none).jump 3)) 0 = some 42 ∧
    pcAfter (.callHelper 7) (withParams platform ((start none none).jump 3)) = some 4 ∧
    statusAfter (exec (.callHelper 7) (start none none)) =
      some (.faulted (.platformFault (.call (.helper .staticId 7)))) ∧
    statusAfter (exec (.callBtf 100) (start none none)) =
      some (.faulted (.platformFault (.call (.helper .btfId 100)))) := by decide

/-- 44_call_exit.md R323: what a helper gives depends on the registers and memory before the call; where its relation
gives nothing the call is a fault. -/
theorem test_helper_relation :
    regAfter (.callBtf 9) (withParams platform ((start none none).setReg 0 0)) 0 = some 1 ∧
    regAfter (.callBtf 9) (withParams platform ((start none none).setReg 0 1)) 0 = some 0 ∧
    statusAfter (exec (.callBtf 9) (withParams platform ((start none none).setReg 0 2))) =
      some (.faulted (.platformFault (.call (.helper .btfId 9)))) ∧
    statusAfter (exec (.callBtf 9) { withParams platform ((start none none).setReg 0 0) with mem := [(0x1000, 1)] }) =
      some (.faulted (.platformFault (.call (.helper .btfId 9)))) := by decide

/-- The example of 44_call_exit.md, CALL_LOCAL, and its fault at the greatest depth (R439). -/
theorem test_call_local :
    (after (.callLocal 3) ((start none none).jump 2)).map (fun t => (t.calls, t.pc)) = some ([3], 6) ∧
    statusAfter (exec (.callLocal 3) { withParams platform (start none none) with calls := [1] }) =
      some (.faulted (.callDepthExceeded 0)) := by decide

/-- The examples of 44_call_exit.md, EXIT; a result without a value is no fault (V122). -/
theorem test_exit :
    (after .exit { (start none none).jump 9 with calls := [3] }).map (fun t => (t.calls, t.pc)) = some ([], 3) ∧
    statusAfter (exec .exit ((start none none).setReg 0 7)) = some (.exited (some 7)) ∧
    statusAfter (exec .exit (start none none)) = some (.exited none) := by decide

/-- The examples of 47_imm64.md. -/
theorem test_imm64 :
    (after (.lddw 1 0x55667788 0x11223344) (start none none)).map (fun t => (t.reg 1, t.pc)) =
      some (some 0x1122334455667788, 2) ∧
    (after (.ldMapFd 3 5) (withParams platform (start none none))).map (fun t => (t.reg 3, t.pc)) =
      some (some 0xffff800000010000, 2) ∧
    regAfter (.ldMapValFd 1 5 16) (withParams platform (start none none)) 1 = some 0x7010 ∧
    regAfter (.ldVarAddr 1 7) (withParams platform (start none none)) 1 = some 0x9000 ∧
    (after (.ldCodeAddr 1 7) (withParams platform (start none none))).map (fun t => (t.reg 1, t.pc)) =
      some (some 0x400038, 2) ∧
    regAfter (.ldMapIdx 1 0) (withParams platform (start none none)) 1 = some 0xffff800000020000 ∧
    regAfter (.ldMapValIdx 1 0 8) (withParams platform (start none none)) 1 = some 0x7008 := by decide

/-- V189, V191, and a lookup the platform does not know at another place (47_imm64.md R405). -/
theorem test_imm64_lookups :
    statusAfter (exec (.ldMapFd 1 4) (withParams platform (start none none))) =
      some (.faulted (.platformFault (.mapByFd 4))) ∧
    regAfter (.ldMapValFd 1 5 0xfffffff8) (withParams platform (start none none)) 1 = some 0x6ff8 ∧
    statusAfter (exec (.ldCodeAddr 1 7) (withParams platform ((start none none).jump 1))) =
      some (.faulted (.platformFault (.codeAddr 1 7))) := by decide

/-- The examples of 48_packet.md, all six. -/
theorem test_packet_unsupported :
    [Instr.ldAbsW 14, .ldAbsH 14, .ldAbsB 14, .ldIndW 7 14, .ldIndH 7 14, .ldIndB 7 14].map
      (fun i => statusAfter (exec i (start none none))) =
      List.replicate 6 (some (.faulted (.unsupportedInstruction 0))) := by decide

/-- 48_packet.md R428: with packet in GROUPS the platform supplies the effect. -/
theorem test_packet_supplied :
    (after (.ldAbsW 14) (withParams { platform with groups := [.packet] } (start none none))).map
      (fun t => (t.reg 0, t.mem, t.pc)) = some (some 5, [(0x1000, 9)], 1) ∧
    (after (.ldIndB 7 14) (withParams { platform with groups := [.packet] } (start (some 1) none))).map
      (fun t => (t.reg 0, t.reg 1, t.pc)) = some (some 6, none, 1) := by decide

/-! ## Faults of an instruction -/

/-- V34, V35, V177, and the order dst before src (60_exceptions.md R435). -/
theorem test_uninit_register :
    statusAfter (exec (.add64X 1 2) (start (some 1) none)) = some (.faulted (.uninitRegister 2)) ∧
    statusAfter (exec (.add64K 1 1) (start none none)) = some (.faulted (.uninitRegister 1)) ∧
    statusAfter (exec (.add64X 1 2) (start none none)) = some (.faulted (.uninitRegister 1)) ∧
    statusAfter (exec (.atomicCmpxchg32 1 2 0) (start (some 0x1000) (some 5))) = some (.faulted (.uninitRegister 0)) := by
  decide

/-- V152 to V157, V179: memory 0x1000 to 0x101f admitted. -/
def small : Params := { defaultParams with grants := [⟨0x1000, 32, [1, 2, 4, 8], [.load, .store, .atomic]⟩] }

theorem test_memory_faults :
    statusAfter (exec (.ldxW 1 2 2) (withParams small (start none (some 0x1000)))) =
      some (.faulted (.memoryFault 0x1002 4 .load)) ∧
    pcAfter (.ldxW 1 2 2) (withParams { small with allowMisaligned := true } (start none (some 0x1000))) = some 1 ∧
    statusAfter (exec (.ldxDw 1 2 28) (withParams small (start none (some 0x1000)))) =
      some (.faulted (.memoryFault 0x101c 8 .load)) ∧
    statusAfter (exec (.stB 1 (-1) 1) (withParams small (start (some 0x1000) none))) =
      some (.faulted (.memoryFault 0xfff 1 .store)) ∧
    statusAfter (exec (.ldxDw 1 2 8) (withParams small (start none (some 0xfffffffffffffff8)))) =
      some (.faulted (.memoryFault 0 8 .load)) ∧
    statusAfter (exec (.atomicAdd64 1 2 4) (withParams { small with allowMisaligned := true }
      (start (some 0x1000) (some 1)))) = some (.faulted (.memoryFault 0x1004 8 .atomic)) := by decide

/-- 20_memory.md R64: the last access of the address space is performed, one that crosses its end never is. -/
theorem test_top_of_memory :
    pcAfter (.ldxDw 1 2 0) (start none (some 0xfffffffffffffff8)) = some 1 ∧
    statusAfter (exec (.ldxDw 1 2 0) (withParams { defaultParams with allowMisaligned := true }
      (start none (some 0xfffffffffffffff9)))) = some (.faulted (.memoryFault 0xfffffffffffffff9 8 .load)) := by decide

/-! ## Shared memory: torn accesses -/

/-- The two bytes at 0x1000 are shared, and the environment writes them both between the two events. -/
def shared : State :=
  { withParams { defaultParams with shared := [⟨0x1000, 2⟩] } (start (some 0x1000) (some 0x1000)) with
    env := ⟨[[], [(0x1000, 0xaa), (0x1001, 0xbb), (0x1002, 0xcc)], []], 0⟩ }

/-- 20_memory.md R73: a plain load of shared bytes may see the old low byte and the new high byte; a byte that is not
shared the environment never writes (R74). -/
theorem test_torn_load :
    regAfter (.ldxH 1 2 0) shared 1 = some 0xbb00 ∧
    (after (.ldxH 1 2 0) shared).map (fun t => t.mem) = some [(0x1000, 0xaa), (0x1001, 0xbb)] ∧
    regAfter (.ldxH 1 2 0) (withParams { shared.params with plainAccessAtomic := true } shared) 1 = some 0 := by decide

/-- 20_memory.md R73, R74: the environment may act after the last byte too, whichever it is. -/
theorem test_torn_last :
    bytesAfter (.stH 1 0 0x1122) { shared with env := ⟨[[], [], [(0x1001, 0xdd)]], 0⟩ } 0x1000 =
      [0x22, 0xdd, 0, 0, 0, 0, 0, 0] ∧
    (after (.ldxH 1 2 0) { shared with env := ⟨[[], [], [(0x1001, 0xdd)]], 0⟩ }).map (fun t => (t.reg 1, t.mem)) =
      some (some 0, [(0x1001, 0xdd)]) := by decide

/-- 20_memory.md R73: a torn store; R72: an atomic operation is one event. -/
theorem test_torn_store :
    bytesAfter (.stH 1 0 0x1122) shared 0x1000 = [0xaa, 0x11, 0, 0, 0, 0, 0, 0] ∧
    bytesAfter (.atomicAdd32 1 2 0) shared 0x1000 = [0, 0x10, 0, 0, 0, 0, 0, 0] := by decide

/-! ## Steps: fetch, the opcode table's words, ended runs -/

/-- 10_state.md R38, R50: nothing is loaded at reset, so the first fetch faults; an ended run takes no step. -/
theorem test_reset_step :
    statusAfter (step State.reset) = some (.faulted (.pcOutOfRange 0)) ∧
    step { State.reset with status := .exited (some 1) } = .fault (.exited (some 1)) := ⟨by decide, rfl⟩

/-- The source's example E2 (95_test_vectors.md), canonical word 0x1122334400000107. -/
theorem test_table_word_add64K :
    decodeTableWord 64 0x1122334400000107 = some (.add64K 1 0x11223344) ∧
    (stepped (State.reset.withFetchWord 64 0x1122334400000107)).map (fun t => (t.reg 1, t.pc)) =
      some (some 0x11223344, 1) := ⟨rfl, by decide⟩

/-- LDDW of 47_imm64.md R401: the second word counts on from bit 64. -/
theorem test_table_word_lddw :
    decodeTableWord 128 0x11223344000000005566778800000118 = some (.lddw 1 0x55667788 0x11223344) ∧
    (stepped (State.reset.withFetchWord 128 0x11223344000000005566778800000118)).map (fun t => (t.reg 1, t.pc)) =
      some (some 0x1122334455667788, 2) := ⟨rfl, by decide⟩

/-- 10_state.md R39, V87: a negative pc faults at the next fetch. -/
theorem test_negative_pc :
    statusAfter (step ((State.reset.withFetchWord 64 0x95).jump (-2))) = some (.faulted (.pcOutOfRange (-2))) := by decide

/-- V203: a jump that lands on the second slot of a wide instruction. -/
theorem test_second_slot_fetched :
    statusAfter (step ((State.reset.withFetchWord 128 0x00000003000000000000000300000118).jump 1)) =
      some (.faulted (.illegalInstruction 1)) := by decide

/-! ## Witnesses: for every statement with hypotheses, a state and operands that meet them together -/

/-- Two instructions and a wide one in program text: `r1 += r2`, EXIT, LDDW. -/
def text : List Slot :=
  [⟨0x0f, 0x21, 0, 0, 0, 0, 0, 0⟩, ⟨0x95, 0, 0, 0, 0, 0, 0, 0⟩, ⟨0x18, 0x01, 0, 0, 7, 0, 0, 0⟩,
    ⟨0, 0, 0, 0, 9, 0, 0, 0⟩]

/-- A Running state with that program and values in r1 and r2. -/
def placed : State := withParams { defaultParams with program := text } (start (some 5) (some 7))

/-- For `LaunchIsAsR52Says`. -/
theorem witness_launch : isReg 10 = true ∧ isReg 11 = false := by decide

theorem inv_of (s : State) (hm : s.mem.wf = true) (hd : s.params.callDepthMax = none) (hc : s.calls = []) : Inv s :=
  ⟨hm, fun d h => (by rw [hd] at h; cases h), fun t h => (by rw [hc] at h; cases h)⟩

/-- For `StepKeepsInvariant` and `ParametersNeverChange`. -/
theorem witness_stepKeepsInvariant : Inv placed ∧ ∃ t, step placed = .next t := ⟨inv_of _ rfl rfl rfl, _, rfl⟩

/-- The same with a call stack as deep as it may be, its entries at both ends of their range. -/
theorem witness_stepKeepsInvariant_full :
    Inv { placed with calls := [1, 4], params := { placed.params with callDepthMax := some 2 } } :=
  ⟨rfl, fun d h => (by cases h; decide), by decide⟩

/-- For `DecodeOfEncodeIsTheInstruction`. -/
theorem witness_decodeOfEncode : (Instr.add64X 10 0).wellFormed = true ∧ (Instr.lddw 10 0 0).wellFormed = true := by decide

/-- For `OnlyEncodingsDecode`. -/
theorem witness_onlyEncodingsDecode : decodeSlots .big [⟨0x0f, 0xa1, 0, 0, 0, 0, 0, 0⟩] = .ok (.add64X 10 1) := rfl

/-- For `ProgramIsWholeSlots`. -/
theorem witness_programIsWholeSlots :
    (List.replicate 7 (0 : Byte)).length % 8 ≠ 0 ∧ (List.replicate 8 (0 : Byte)).length % 8 = 0 := by decide

/-- For `StepRunsTheDecodedInstruction`. -/
theorem witness_stepRuns :
    placed.status = .running ∧ 0 ≤ placed.pc ∧ placed.params.shared = [] ∧
    decodeSlots placed.params.endian (placed.params.program.drop placed.pc.toNat) = .ok (.add64X 1 2) :=
  ⟨rfl, by decide, rfl, rfl⟩

/-- For `FetchOutsideProgramFaults`. -/
theorem witness_fetchOutside :
    (placed.jump (-1)).pc < 0 ∧ ((placed.jump 4).params.program.length : Int) ≤ (placed.jump 4).pc := by decide

/-- No instruction has the opcode byte 0x8c. -/
theorem opcode_ne (i : Instr) : (encodeFields i).1.opcode ≠ 0x8c := by cases i <;> simp [encodeFields]

theorem encodeSlots_head (e : Endian) (i : Instr) {s : Slot} {rest : List Slot} (h : encodeSlots e i <+: s :: rest) :
    s.b0 = (encodeFields i).1.opcode := by
  obtain ⟨l, h⟩ := h
  simp only [encodeSlots, List.cons_append, List.cons.injEq] at h
  rw [← h.1]
  cases e <;> rfl

/-- For `IllegalEncodingFaults`, first clause. -/
theorem witness_illegalEncoding :
    placed.status = .running ∧ 0 ≤ placed.pc ∧
    (∀ i : Instr, i.wellFormed = true →
      ¬(encodeSlots .little i <+: [(⟨0x8c, 0, 0, 0, 0, 0, 0, 0⟩ : Slot)])) ∧
    (∀ (i : Instr) (second : Slot), i.wellFormed = true → ([] : List Slot) = [] →
      encodeSlots .little i ≠ [⟨0x8c, 0, 0, 0, 0, 0, 0, 0⟩, second]) ∧
    (withParams { placed.params with program := [⟨0x8c, 0, 0, 0, 0, 0, 0, 0⟩] } placed).params.program.drop 0 =
      [⟨0x8c, 0, 0, 0, 0, 0, 0, 0⟩] :=
  ⟨rfl, by decide, fun i _ h => opcode_ne i (encodeSlots_head _ i h).symm,
    fun i second _ _ h => opcode_ne i (encodeSlots_head .little i (rest := [second]) (by rw [h])).symm, rfl⟩

/-- For `IllegalEncodingFaults`, second clause. -/
theorem witness_wideCutOff :
    (Instr.lddw 1 7 9).wellFormed = true ∧
    encodeSlots .little (.lddw 1 7 9) = [⟨0x18, 0x01, 0, 0, 7, 0, 0, 0⟩, ⟨0, 0, 0, 0, 9, 0, 0, 0⟩] ∧
    (withParams { placed.params with program := text.take 3 } (placed.jump 2)).params.program.drop 2 =
      [⟨0x18, 0x01, 0, 0, 7, 0, 0, 0⟩] := ⟨rfl, rfl, rfl⟩

/-- For `UndefinedOpcodeBytesFault`. -/
theorem witness_undefinedOpcode :
    (0x00 : BitVec 8) ∈ illegalOpcodes ∧ (0xff : BitVec 8) ∈ illegalOpcodes ∧ (0x95 : BitVec 8) ∉ illegalOpcodes := by
  decide

/-- For `FaultChangesOnlyStatus` and `PcMovesOnlyAsTheTextSays`. -/
theorem witness_fault :
    (start none none).status = .running ∧
    exec (.add64K 1 0) (start none none) = .next { start none none with status := .faulted (.uninitRegister 1) } :=
  ⟨rfl, rfl⟩

/-- For `RunningStateAlwaysSteps` and `ParametersNeverChange`. -/
theorem witness_step_next : placed.status = .running ∧ ∃ t, step placed = .next t := ⟨rfl, _, rfl⟩

/-- For `EndedRunTakesNoStep`. -/
theorem witness_endedRun :
    ({ placed with status := .exited none } : State).status = .exited none ∧
    ({ placed with status := .faulted (.pcOutOfRange 0) } : State).status = .faulted (.pcOutOfRange 0) := ⟨rfl, rfl⟩

/-- For `OnlyListedRegistersChange` and `OnlyStoresChangeMemory`. An instruction that neither stores nor asks the
platform, and its next state, with no byte shared. -/
theorem witness_keeps :
    (Instr.ldxB 1 2 0).asksPlatform = false ∧ (Instr.ldxB 1 2 0).stores = false ∧ placed.params.shared = [] ∧
    ∃ t, exec (.ldxB 1 2 0) placed = .next t := ⟨rfl, rfl, rfl, _, rfl⟩

/-- For `OnlyStoresChangeMemory`. A load of two shared bytes, one of which the environment changes meanwhile. -/
theorem witness_keeps_shared :
    (Instr.ldxH 1 2 0).asksPlatform = false ∧ (Instr.ldxH 1 2 0).stores = false ∧ shared.mem.wf = true ∧
    SharedByte shared.params 0x1001 ∧ shared.env.Comes [(0x1000, 0xaa), (0x1001, 0xbb), (0x1002, 0xcc)] ∧
    ∃ t, exec (.ldxH 1 2 0) shared = .next t ∧ t.mem.read 0x1001 = 0xbb :=
  ⟨rfl, rfl, rfl, isShared_iff.mp (by decide), ⟨1, rfl⟩, _, rfl, rfl⟩

/-- For `EnvironmentTouchesSharedBytesOnly`. -/
theorem witness_environment : shared.mem.wf = true ∧ SharedByte shared.params 0x1001 ∧ ¬SharedByte shared.params 0x1002 :=
  ⟨rfl, isShared_iff.mp (by decide), fun h => absurd (isShared_iff.mpr h) (by decide)⟩

/-- For `UnsupportedGroupFaults`. -/
theorem witness_unsupported :
    (Instr.add64K 1 0).wellFormed = true ∧ (∀ n, Instr.add64K 1 0 ≠ .imm64Hi n) ∧
    supports (withParams { defaultParams with groups := [] } placed).params.groups (Instr.add64K 1 0).group = false :=
  ⟨rfl, fun _ h => (by cases h), rfl⟩

/-- For `BadRegisterNumberFaults`. -/
theorem witness_badRegister : (Instr.add64X 10 11).wellFormed = false := by decide

/-- For `UninitRegisterFaults`. The first, the second and the third register read. -/
theorem witness_uninit :
    (Instr.atomicCmpxchg64 1 2 0).wellFormed = true ∧
    supports defaultParams.groups (Instr.atomicCmpxchg64 1 2 0).group = true ∧
    (Instr.atomicCmpxchg64 1 2 0).reads = [] ++ 1 :: [2, 0] ∧ (start none none).reg 1 = none ∧
    (Instr.atomicCmpxchg64 1 2 0).reads = [1] ++ 2 :: [0] ∧ (start (some 0) none).reg 1 ≠ none ∧
    (start (some 0) none).reg 2 = none ∧
    (Instr.atomicCmpxchg64 1 2 0).reads = [1, 2] ++ 0 :: [] ∧ (start (some 0) (some 0)).reg 2 ≠ none ∧
    (start (some 0) (some 0)).reg 0 = none := by decide

/-- For `AddSubMulNegWrap`, `BitwiseResults`, `ShiftResults`, `ByteSwapResults` and the conditional jumps. The
hypotheses of the results of the arithmetic, byte swap and jump statements. -/
theorem witness_operands :
    (∀ g ∈ defaultGroups, supports placed.params.groups g = true) ∧ placed.reg 1 = some 5 ∧ placed.reg 2 = some 7 := by
  decide

/-- For `UnsignedDivisionAndModulo`, `SignedDivision` and `SignedModulo`, with `witness_operands`. The least divisors
that are not zero, at 32 and 64 bits. -/
theorem witness_divisors :
    (1 : Imm) ≠ 0 ∧ (BitVec.setWidth 32 (1 : Word)) ≠ 0 ∧ (BitVec.signExtend 64 (0x80000000 : Imm)) ≠ 0 ∧ (1 : Word) ≠ 0 := by
  decide

/-- For `DivisionByZeroGivesZero` and `ModuloByZeroKeepsTheDividend`, with `witness_operands`. A divisor that is zero
at 32 bits and not at 64. -/
theorem witness_zeroDivisors :
    (BitVec.setWidth 32 (0x100000000 : Word)) = 0 ∧ (0x100000000 : Word) ≠ 0 ∧ (BitVec.signExtend 64 (0 : Imm)) = 0 := by
  decide

/-- For `Alu32ZeroesAndIgnoresUpperBits`. -/
theorem witness_alu32 :
    (Instr.add32X 1 2).isAlu32 = true ∧ (Instr.add32X 1 2).writes = [1] ∧ placed.status = .running ∧
    (placed.setReg 2 0xffffffff00000007) = { placed with x := (placed.setReg 2 0xffffffff00000007).x } ∧
    (∀ r, ((placed.setReg 2 0xffffffff00000007).reg r).map (fun v => v.setWidth 32) =
      (placed.reg r).map (fun v : Word => v.setWidth 32)) ∧
    (∃ t, exec (.add32X 1 2) placed = .next t ∧ t.status = .running) ∧
    (∃ t, exec (.add32X 1 2) (placed.setReg 2 0xffffffff00000007) = .next t) :=
  ⟨rfl, rfl, rfl, rfl, by decide, ⟨_, rfl, rfl⟩, _, rfl⟩

/-- For `MoveResults` and `MovsxSignExtends`, with `witness_operands`. Moves: the destination holds no value. -/
theorem witness_moves : isReg 10 = true ∧ placed.reg 10 = none ∧ placed.reg 2 = some 7 := by decide

/-- For `MovsxSignExtends`, last clause. -/
theorem witness_movsx_illegal :
    (⟨0xbc, 1, 2, 32, 0⟩ : Fields).opcode = 0xbc ∧ (⟨0xb7, 1, 0, 1, 0⟩ : Fields).opcode = 0xb7 ∧
    (⟨0xb7, 1, 0, 1, 0⟩ : Fields).offset ≠ 0 := by decide

/-- For `ConditionalJumps64` and `ConditionalJumps32`. Conditions that hold and that do not, at the boundary. -/
theorem witness_conditions :
    (7 : Word).toNat ≥ (7 : Word).toNat ∧ ¬(7 : Word).toNat > (7 : Word).toNat ∧
    (0x80000000 : BitVec 32).toInt < (0x7fffffff : BitVec 32).toInt ∧
    ¬(0x80000000 : BitVec 32).toNat < (0x7fffffff : BitVec 32).toNat ∧ (1 : Word) &&& 2 = 0 := by decide

/-- For `CallLocalPushesAndJumps`. Below the greatest depth by one, at it, and unbounded. -/
theorem witness_callDepth :
    (∀ d, (withParams platform placed).params.callDepthMax = some d → (withParams platform placed).calls.length < d) ∧
    platform.callDepthMax = some 1 ∧ 1 ≤ ({ placed with calls := [1] } : State).calls.length ∧
    placed.params.callDepthMax = none := ⟨fun d h => (by cases h; decide), rfl, by decide, rfl⟩

/-- For `ExitReturnsOrEndsTheRun`. -/
theorem witness_exit : placed.calls = [] ∧ ({ placed with calls := [3, 5] } : State).calls = [3] ++ [5] := ⟨rfl, rfl⟩

/-- For `ReturnComesBackBehindTheCall`. -/
theorem witness_return :
    placed.status = .running ∧ (∃ t, exec (.callLocal 0) placed = .next t ∧ t.status = .running ∧
      (start none none |> fun u => { u with calls := [1] } : State).calls = t.calls) := ⟨rfl, _, rfl, rfl, rfl⟩

/-- For `HelperCallsTakeThePlatformsAnswer` and `MissingHelperFaults`. -/
theorem witness_helper :
    (withParams platform placed).mem.wf = true ∧
    answerOf (withParams platform placed) (.helper .staticId 7) = some (.returns [(0, some 42)] []) ∧
    answerOf (withParams platform placed) (.helper .staticId 8) = some .fails ∧
    answerOf (withParams platform placed) (.helper .btfId 7) = none := ⟨rfl, by decide, by decide, by decide⟩

/-- For `PlatformCallTakesAnAnswerOfItsRelation`: the relation gives an answer, a fault, nothing. -/
theorem witness_relation :
    ((withParams platform placed).setReg 0 1).mem.wf = true ∧
    Gives ((withParams platform placed).setReg 0 1) (.helper .btfId 9) (.returns [(0, some 0)] []) ∧
    Gives (withParams platform placed) (.helper .staticId 8) .fails ∧
    (∀ a, ¬Gives (withParams platform placed) (.helper .staticId 9) a) ∧
    isReg 7 = true ∧ Group.packet ∈ ({ platform with groups := [.packet] } : Params).groups ∧
    Gives (withParams { platform with groups := [.packet] } placed) (.packet .ind .b 7 14)
      (.returns [(0, some 6), (1, none)] []) :=
  ⟨rfl, mem_answersOf.mp (by decide), mem_answersOf.mp (by decide), answerOf_eq_none.mp rfl, rfl, by decide,
    mem_answersOf.mp (by decide)⟩

/-- For `LoadResults`, `ImmediateStoreResults`, `RegisterStoreResults`, `AtomicResults` and `AtomicFetchResults`.
Accesses of the last bytes of the address space, the address computed past 2^64. -/
theorem witness_performed :
    placed.mem.wf = true ∧ isReg 10 = true ∧ (∀ g ∈ defaultGroups, supports placed.params.groups g = true) ∧
    placed.reg 1 = some 5 ∧ placed.reg 2 = some 7 ∧
    Performed placed.params (7 + (-8 : Offset).signExtend 64) 1 .load ∧
    Performed placed.params (7 + (-9 : Offset).signExtend 64) 2 .load ∧
    Performed placed.params (7 + (-11 : Offset).signExtend 64) 4 .load ∧
    Performed placed.params (7 + (-15 : Offset).signExtend 64) 8 .load ∧
    Performed placed.params (5 + (-6 : Offset).signExtend 64) 1 .store ∧
    Performed placed.params (5 + (-7 : Offset).signExtend 64) 2 .store ∧
    Performed placed.params (5 + (-9 : Offset).signExtend 64) 4 .store ∧
    Performed placed.params (5 + (-13 : Offset).signExtend 64) 8 .store ∧
    Performed placed.params (5 + (-9 : Offset).signExtend 64) 4 .atomic ∧
    Performed placed.params (5 + (-13 : Offset).signExtend 64) 8 .atomic ∧
    (∀ a n, ¬Torn placed.params a n) :=
  ⟨rfl, by decide, by decide, by decide, by decide, accessible_iff.mp (by decide), accessible_iff.mp (by decide),
    accessible_iff.mp (by decide), accessible_iff.mp (by decide), accessible_iff.mp (by decide),
    accessible_iff.mp (by decide), accessible_iff.mp (by decide), accessible_iff.mp (by decide),
    accessible_iff.mp (by decide), accessible_iff.mp (by decide),
    fun _ _ ⟨_, ⟨_, _, _, h, _⟩, _⟩ => absurd h List.not_mem_nil⟩

/-- For `TornLoadResults`, `ImmediateStoreResults` and `RegisterStoreResults`. Torn accesses, of which two bytes at an
end are shared. -/
theorem witness_torn :
    shared.mem.wf = true ∧ isReg 10 = true ∧ (∀ g ∈ defaultGroups, supports shared.params.groups g = true) ∧
    shared.reg 1 = some 0x1000 ∧ shared.reg 2 = some 0x1000 ∧
    (∀ n ∈ [2, 4, 8], ∀ k ∈ [AccessKind.load, .store], Performed shared.params (0x1000 + (0 : Offset).signExtend 64) n k) ∧
    (∀ n ∈ [2, 4, 8], Torn shared.params (0x1000 + (0 : Offset).signExtend 64) n) ∧
    ¬Torn shared.params (0x1000 + (2 : Offset).signExtend 64) 2 :=
  ⟨rfl, by decide, by decide, by decide, by decide, fun n hn k hk => accessible_iff.mp (by revert n k; decide),
    fun n hn => tears_iff.mp (by revert n; decide), fun h => absurd (tears_iff.mpr h) (by decide)⟩

/-- For `StoreThenLoadGivesTheValue`. -/
theorem witness_storeThenLoad :
    (start (some 0x1000) (some 7)).mem.wf = true ∧ (start (some 0x1000) (some 7)).params.shared = [] ∧
    ∃ t u, exec (.stxDw 1 2 0) (start (some 0x1000) (some 7)) = .next t ∧ exec (.ldxDw 3 1 0) t = .next u ∧
      t.status = .running ∧ u.status = .running := ⟨rfl, rfl, _, _, rfl, rfl, rfl, rfl⟩

/-- For `MemoryFaults`; r0 holds no value, or one where CMPXCHG reads it. Not admitted, past the end by one byte, misaligned. -/
theorem witness_notPerformed :
    (start (some 0x1000) (some 0x1000)).reg 1 = some 0x1000 ∧ (start (some 0x1000) (some 0x1000)).reg 2 = some 0x1000 ∧
    (start (some 0x1000) (some 0x1000)).reg 0 = none ∧ ((start (some 0x1000) (some 0x1000)).setReg 0 0).reg 0 = some 0 ∧ isReg 10 = true ∧
    (∀ g ∈ defaultGroups, supports small.groups g = true) ∧
    (∀ n ∈ [1, 2, 4, 8], ∀ k ∈ [AccessKind.load, .store, .atomic],
      ¬Performed small (0x1000 + (32 : Offset).signExtend 64) n k) ∧
    ¬Performed defaultParams (0x1000 + (-0x1007 : Offset).signExtend 64) 8 .store ∧
    ¬Performed { defaultParams with allowMisaligned := true } (0x1000 + (4 : Offset).signExtend 64) 8 .atomic :=
  ⟨by decide, by decide, by decide, by decide, by decide, by decide,
    fun n hn k hk h => absurd (accessible_iff.mpr h) (by clear h; revert n k; decide),
    fun h => absurd (accessible_iff.mpr h) (by decide), fun h => absurd (accessible_iff.mpr h) (by decide)⟩

/-- For `CmpxchgResults`. The comparison of CMPXCHG can match and fail. -/
theorem witness_cmpxchg :
    (holding 0x2000 atomicBytes (start (some 0x2000) (some 1))).mem.wf = true ∧
    (start (some 0x2000) (some 1)).reg 1 = some 0x2000 ∧ (start (some 0x2000) (some 1)).reg 2 = some 1 ∧
    ((start (some 0x2000) (some 1)).setReg 0 0x55555555fffffff0).reg 0 = some 0x55555555fffffff0 ∧
    (∀ n ∈ [4, 8], accessible defaultParams (0x2000 + (0 : Offset).signExtend 64) n .atomic = true) ∧
    (0xfffffff0 : Word).toNat = (0x55555555fffffff0 : Word).toNat % 2 ^ (8 * 4) ∧
    (0xfffffff0 : Word).toNat ≠ (1 : Word).toNat % 2 ^ (8 * 4) := by decide

/-- For `WideImmediateResult`, `PlatformLookupResults` and `MissingLookupFaults`. -/
theorem witness_lookups :
    supports platform.groups .base64 = true ∧ isReg 10 = true ∧ platform.mapByFd.lookup 5 = some 0xffff800000010000 ∧
    platform.mapByIdx.lookup 0 = some 0xffff800000020000 ∧ platform.varAddr.lookup 7 = some 0x9000 ∧
    platform.codeAddr.lookup (0, 7) = some 0x400038 ∧ platform.mapVal.lookup 0xffff800000010000 = some 0x7000 ∧
    platform.mapByFd.lookup 4 = none ∧ platform.mapByIdx.lookup 1 = none ∧ platform.varAddr.lookup 8 = none ∧
    platform.codeAddr.lookup (1, 7) = none ∧ platform.mapVal.lookup 0 = none := by decide

/-- For `MissingLookupFaults`, last clause. A map whose first value the platform does not know. -/
theorem witness_noValue :
    ({ platform with mapByFd := [(5, 0)], mapByIdx := [(5, 0)] } : Params).mapByFd.lookup 5 = some 0 ∧
    ({ platform with mapByFd := [(5, 0)], mapByIdx := [(5, 0)] } : Params).mapByIdx.lookup 5 = some 0 ∧
    platform.mapVal.lookup 0 = none := by decide

/-- For the two statements of the packet instructions. -/
theorem witness_packet :
    .packet ∉ placed.params.groups ∧ .packet ∈ ({ platform with groups := [.packet] } : Params).groups ∧
    isReg 10 = true ∧
    answerOf (withParams { platform with groups := [.packet] } placed) (.packet .abs .w 0 14) =
      some (.returns [(0, some 5)] [(0x1000, 9)]) ∧
    answerOf (withParams { platform with groups := [.packet] } placed) (.packet .abs .b 0 14) = none := by decide

/-- For `SecondSlotFetchedIsIllegal`. -/
theorem witness_secondSlot :
    (placed.jump 3).status = .running ∧ 0 ≤ (placed.jump 3).pc ∧ (Instr.lddw 1 7 9).wellFormed = true ∧
    encodeSlots (placed.jump 3).params.endian (.lddw 1 7 9) =
      [⟨0x18, 0x01, 0, 0, 7, 0, 0, 0⟩, ⟨0, 0, 0, 0, 9, 0, 0, 0⟩] ∧
    (placed.jump 3).params.program.drop (placed.jump 3).pc.toNat = [⟨0, 0, 0, 0, 9, 0, 0, 0⟩] :=
  ⟨rfl, by decide, rfl, rfl, rfl⟩

end Sys2Proof.Tests
end

section
/-! PROOFS. The binary operations of the ALU classes: one lemma from the four operand forms to `BinaryGives`, for any
operation; then the shifts (30_encoding.md R115). -/

namespace Sys2Proof.Proofs

open Sys2Proof.Machine

/-! ## From the operand forms to the shape of a result statement -/

/-- Four instructions are the four forms of the binary operation `op` (40_alu_add_to_rsh.md R150, R151). -/
structure HasAluForms (k32 : RegNum → Imm → Instr) (x32 : RegNum → RegNum → Instr) (g32 : Group)
    (k64 : RegNum → Imm → Instr) (x64 : RegNum → RegNum → Instr) (g64 : Group)
    (op : {w : Nat} → BitVec w → BitVec w → BitVec w) : Prop where
  exec_k32 (dst : RegNum) (imm : Imm) (s : State) : exec (k32 dst imm) s = alu32K g32 op dst imm s
  exec_x32 (dst src : RegNum) (s : State) : exec (x32 dst src) s = alu32X g32 op dst src s
  exec_k64 (dst : RegNum) (imm : Imm) (s : State) : exec (k64 dst imm) s = alu64K g64 op dst imm s
  exec_x64 (dst src : RegNum) (s : State) : exec (x64 dst src) s = alu64X g64 op dst src s

/-- The four forms of `op` give what `op` is at the two widths of the machine. -/
theorem HasAluForms.binaryGives {k32 k64 : RegNum → Imm → Instr} {x32 x64 : RegNum → RegNum → Instr}
    {g32 g64 : Group} {op : {w : Nat} → BitVec w → BitVec w → BitVec w} (forms : HasAluForms k32 x32 g32 k64 x64 g64 op)
    {ok : (w : Nat) → BitVec w → Prop} {f : (w : Nat) → BitVec w → BitVec w → BitVec w}
    (hop : ∀ w, w = 32 ∨ w = 64 → ∀ a b : BitVec w, ok w b → op a b = f w a b) :
    BinaryGives k32 x32 g32 k64 x64 g64 ok f := by
  refine ⟨fun s dst imm a hg ha hb => ?k32, fun s dst src a b hg ha hs hb => ?x32,
    fun s dst imm a hg ha hb => ?k64, fun s dst src a b hg ha hs hb => ?x64⟩
  case k32 =>
    rw [← hop 32 (.inl rfl) _ _ hb]
    exact computes_of_finish ((forms.exec_k32 dst imm s).trans (alu32K_eq op hg ha)) (State.isReg_of_reg ha)
  case x32 =>
    rw [← hop 32 (.inl rfl) _ _ hb]
    exact computes_of_finish ((forms.exec_x32 dst src s).trans (alu32X_eq op hg ha hs)) (State.isReg_of_reg ha)
  case k64 =>
    rw [← hop 64 (.inr rfl) _ _ hb]
    exact computes_of_finish ((forms.exec_k64 dst imm s).trans (alu64K_eq op hg ha)) (State.isReg_of_reg ha)
  case x64 =>
    rw [← hop 64 (.inr rfl) _ _ hb]
    exact computes_of_finish ((forms.exec_x64 dst src s).trans (alu64X_eq op hg ha hs)) (State.isReg_of_reg ha)

/-! ## The shifts -/

theorem lsh_forms : HasAluForms .lsh32K .lsh32X .base32 .lsh64K .lsh64X .base64 aluLsh :=
  ⟨exec_lsh32K, exec_lsh32X, exec_lsh64K, exec_lsh64X⟩

theorem rsh_forms : HasAluForms .rsh32K .rsh32X .base32 .rsh64K .rsh64X .base64 aluRsh :=
  ⟨exec_rsh32K, exec_rsh32X, exec_rsh64K, exec_rsh64X⟩

theorem arsh_forms : HasAluForms .arsh32K .arsh32X .base32 .arsh64K .arsh64X .base64 aluArsh :=
  ⟨exec_arsh32K, exec_arsh32X, exec_arsh64K, exec_arsh64X⟩

/-- The model's mask, `w - 1`, is the mask that R115 gives for each class. -/
theorem shiftAmount_eq_mask {w : Nat} (hw : w = 32 ∨ w = 64) (b : BitVec w) :
    shiftAmount b = (b &&& BitVec.ofNat w (if w = 32 then 0x1F else 0x3F)).toNat := by
  rcases hw with rfl | rfl <;> rfl

/-- A masked amount is at most the mask. -/
theorem toNat_and_le_mask {w : Nat} (b mask : BitVec w) : (b &&& mask).toNat ≤ mask.toNat := by
  rw [BitVec.toNat_and]
  exact Nat.and_le_right

theorem aluLsh_eq_mul {w : Nat} (a b : BitVec w) : aluLsh a b = BitVec.ofNat w (a.toNat * 2 ^ shiftAmount b) := by
  apply BitVec.eq_of_toNat_eq
  rw [aluLsh, BitVec.toNat_shiftLeft, BitVec.toNat_ofNat, Nat.shiftLeft_eq]

theorem aluRsh_eq_div {w : Nat} (a b : BitVec w) : aluRsh a b = BitVec.ofNat w (a.toNat / 2 ^ shiftAmount b) := by
  rw [aluRsh, ← Nat.shiftRight_eq_div_pow, ← BitVec.toNat_ushiftRight, BitVec.ofNat_toNat, BitVec.setWidth_eq]

theorem aluArsh_eq_div {w : Nat} (a b : BitVec w) : aluArsh a b = BitVec.ofInt w (a.toInt / 2 ^ shiftAmount b) := by
  rw [aluArsh, BitVec.sshiftRight_eq, Int.shiftRight_eq_div_pow, Nat.cast_pow, Nat.cast_ofNat]

/-- Settles O25: each shift is an arithmetic operation by `2 ^ shiftAmount b`, and the amount is the one R115 masks. -/
theorem shiftResults : Obligations.ShiftResults := by
  refine ⟨lsh_forms.binaryGives ?lsh, rsh_forms.binaryGives ?rsh, arsh_forms.binaryGives ?arsh, ?amount32, ?amount64⟩
  case lsh => exact fun w hw a b _ => by rw [aluLsh_eq_mul, shiftAmount_eq_mask hw]
  case rsh => exact fun w hw a b _ => by rw [aluRsh_eq_div, shiftAmount_eq_mask hw]
  case arsh => exact fun w hw a b _ => by rw [aluArsh_eq_div, shiftAmount_eq_mask hw]
  case amount32 => exact fun b => Nat.lt_succ_of_le (toNat_and_le_mask b 0x1F)
  case amount64 => exact fun b => Nat.lt_succ_of_le (toNat_and_le_mask b 0x3F)

end Sys2Proof.Proofs
end

section
/-! PROOFS. Division in the ALU classes, unsigned and signed, where the divisor is zero (40_alu_add_to_rsh.md R153). -/

namespace Sys2Proof.Proofs

open Sys2Proof.Machine

/-! ## The divisions -/

theorem div_forms : HasAluForms .div32K .div32X .divmul32 .div64K .div64X .divmul64 aluDiv :=
  ⟨exec_div32K, exec_div32X, exec_div64K, exec_div64X⟩

theorem sdiv_forms : HasAluForms .sdiv32K .sdiv32X .divmul32 .sdiv64K .sdiv64X .divmul64 aluSdiv :=
  ⟨exec_sdiv32K, exec_sdiv32X, exec_sdiv64K, exec_sdiv64X⟩

@[simp] theorem aluDiv_zero {w : Nat} (a : BitVec w) : aluDiv a 0 = 0 := if_pos rfl

@[simp] theorem aluSdiv_zero {w : Nat} (a : BitVec w) : aluSdiv a 0 = 0 := if_pos rfl

/-- Settles O29: in each of the four forms the divisor that the operation tests is the source operand at the operation's
own width, so its value at a zero divisor is the result that R153 sets. -/
theorem divisionByZeroGivesZero : Obligations.DivisionByZeroGivesZero := by
  refine ⟨div_forms.binaryGives ?div, sdiv_forms.binaryGives ?sdiv⟩
  case div =>
    rintro w - a b rfl
    exact aluDiv_zero a
  case sdiv =>
    rintro w - a b rfl
    exact aluSdiv_zero a

end Sys2Proof.Proofs
end

section
/-! PROOFS. Remainder in the ALU classes, unsigned and signed, where the divisor is zero
(41_alu_neg_to_arsh.md R200). -/

namespace Sys2Proof.Proofs

open Sys2Proof.Machine

/-! ## The remainders -/

theorem mod_forms : HasAluForms .mod32K .mod32X .divmul32 .mod64K .mod64X .divmul64 aluMod :=
  ⟨exec_mod32K, exec_mod32X, exec_mod64K, exec_mod64X⟩

theorem smod_forms : HasAluForms .smod32K .smod32X .divmul32 .smod64K .smod64X .divmul64 aluSmod :=
  ⟨exec_smod32K, exec_smod32X, exec_smod64K, exec_smod64X⟩

@[simp] theorem aluMod_zero {w : Nat} (a : BitVec w) : aluMod a 0 = a := if_pos rfl

@[simp] theorem aluSmod_zero {w : Nat} (a : BitVec w) : aluSmod a 0 = a := if_pos rfl

/-- Settles O30: at a zero divisor both remainders are the dividend at the operation's own width, so the 64-bit forms
write back the whole register and the 32-bit forms its low half, zero-extended. -/
theorem moduloByZeroKeepsTheDividend : Obligations.ModuloByZeroKeepsTheDividend := by
  refine ⟨mod_forms.binaryGives ?mod, smod_forms.binaryGives ?smod⟩
  case mod =>
    rintro w - a b rfl
    exact aluMod_zero a
  case smod =>
    rintro w - a b rfl
    exact aluSmod_zero a

end Sys2Proof.Proofs
end

section
/-! PROOFS. Moves with sign extension: their results, and the encodings next to them that are no instruction
(41_alu_neg_to_arsh.md R202). -/

namespace Sys2Proof.Proofs

open Sys2Proof.Machine

/-! ## The result of a move -/

/-- An instruction of the register move form gives what the operation of that form is. -/
theorem moveGives_of_exec {mk : RegNum → RegNum → Instr} {g : Group} {op f : Word → Word}
    (hexec : ∀ (dst src : RegNum) (s : State), exec (mk dst src) s = moveX g op dst src s) (hop : ∀ b, op b = f b) :
    MoveGives mk g f := fun s dst src b hg hr hb => by
  rw [← hop b]
  exact computes_of_finish ((hexec dst src s).trans (moveX_eq op hg hr hb)) hr

/-- The low bits of the low half are the low bits of the register. -/
theorem signExtendLow_lo32 {k : Nat} (hk : k ≤ 32) (b : Word) :
    signExtendLow k (lo32 b) = (b.setWidth k).signExtend 32 := by
  rw [signExtendLow, lo32, BitVec.setWidth_setWidth_of_le b hk]

/-! ## The encodings of MOV and MOVSX -/

/-- A row with an immediate operand fixes the `offset` field (30_encoding.md R112 step 2). -/
theorem formK_of_offset_ne {offset : Offset} {f : Fields} (c : RegNum → Imm → Instr) (h : f.offset ≠ offset) :
    formK offset c f = .error .unknownEncoding := by
  simp [formK, accept, h]

theorem decode_opcode_b4 {f : Fields} (second : Option Fields) (h : f.opcode = 0xb4) :
    decode f second = formK 0 .mov32K f := by
  simp [decode, decodeAlu, h]

theorem decode_opcode_b7 {f : Fields} (second : Option Fields) (h : f.opcode = 0xb7) :
    decode f second = formK 0 .mov64K f := by
  simp [decode, decodeAlu64, h]

/-- In class ALU no MOVSX has the width 32. -/
theorem decode_opcode_bc_offset_32 {f : Fields} (second : Option Fields) (hop : f.opcode = 0xbc)
    (hoff : f.offset = 32) : decode f second = .error .unknownEncoding := by
  simp [decode, decodeAlu, hop, hoff]

/-- Settles O33: each MOVSX is a register move whose operation is the sign extension stated, at 32 bits of the low half;
0xbc has no row for the width 32, and the rows of MOV with K fix `offset` to 0. -/
theorem movsxSignExtends : Obligations.MovsxSignExtends := by
  refine ⟨moveGives_of_exec exec_movsx32_8 ?low8, moveGives_of_exec exec_movsx32_16 ?low16,
    moveGives_of_exec exec_movsx64_8 fun _ => rfl, moveGives_of_exec exec_movsx64_16 fun _ => rfl,
    moveGives_of_exec exec_movsx64_32 fun _ => rfl, ?encodings, fun f second => ⟨?width32, ?movK⟩⟩
  case low8 => exact fun b => by rw [signExtendLow_lo32 (by decide), zext32]
  case low16 => exact fun b => by rw [signExtendLow_lo32 (by decide), zext32]
  case encodings => exact fun dst src => ⟨rfl, rfl, rfl, rfl, rfl, rfl, rfl⟩
  case width32 => exact decode_opcode_bc_offset_32 second
  case movK =>
    rintro (hop | hop) hoff
    · rw [decode_opcode_b4 second hop, formK_of_offset_ne _ hoff]
    · rw [decode_opcode_b7 second hop, formK_of_offset_ne _ hoff]

end Sys2Proof.Proofs
end

section
/-! PROOFS. Launch, the fetch and one step: what a step can answer, and what every step keeps (10_state.md R38, R50, R52;
60_exceptions.md R431). -/

namespace Sys2Proof.Proofs

open Sys2Proof.Machine

/-! ## Launch -/

/-- Every register holds 0 at reset (assumption log entry 1). -/
theorem reset_reg {r : RegNum} (hr : isReg r = true) : State.reset.reg r = some 0 := by
  simp only [isReg, decide_eq_true_eq] at hr
  simp [State.reg, State.reset, State.launch, show r.toNat < 11 by omega]

/-- Settles O1: the fields of a launch are read off its definition, and reset is a launch. -/
theorem launchIsAsR52Says : Obligations.LaunchIsAsR52Says :=
  ⟨fun _ _ _ _ => ⟨rfl, rfl, rfl, rfl, rfl, rfl⟩, rfl, rfl, rfl, rfl, fun _ => reset_reg, fun _ => rfl⟩

/-- Settles O2: at reset memory lists no byte, the depth is unbounded and the call stack is empty. -/
theorem invariantHoldsAtReset : Obligations.InvariantHoldsAtReset := by
  refine ⟨rfl, fun d hd => ?_, fun t ht => ?_⟩
  · exact absurd hd (by simp [State.reset, State.launch, defaultParams])
  · exact absurd ht List.not_mem_nil

/-! ## The fetch -/

theorem slotAt_of_neg {program : List Slot} {i : Int} (h : i < 0) : slotAt program i = none :=
  if_neg (Int.not_le.mpr h)

theorem slotAt_of_nonneg {program : List Slot} {i : Int} (h : 0 ≤ i) : slotAt program i = program[i.toNat]? := if_pos h

/-- A `pc` outside the program is a fault of the fetch (60_exceptions.md R434). -/
theorem fetch_outside {s : State} (h : s.pc < 0 ∨ (s.params.program.length : Int) ≤ s.pc) :
    fetch s = .error (.pcOutOfRange s.pc) := by
  have hslot : slotAt s.params.program s.pc = none := by
    rcases h with h | h
    · exact slotAt_of_neg h
    · rw [slotAt_of_nonneg (by omega)]
      exact List.getElem?_eq_none (by omega)
  simp only [fetch, hslot]

/-- At a slot the fetch is the decoding of the program text from there on (30_encoding.md R112). -/
theorem fetch_inside {s : State} (h0 : 0 ≤ s.pc) (hlt : s.pc < s.params.program.length) :
    fetch s = (decodeSlots s.params.endian (s.params.program.drop s.pc.toNat)).mapError (decodeFault s.pc) := by
  have hpc : s.pc.toNat < s.params.program.length := by omega
  have hnext : slotAt s.params.program (s.pc + 1) = (s.params.program.drop (s.pc.toNat + 1)).head? := by
    rw [slotAt_of_nonneg (by omega), List.head?_drop, show (s.pc + 1).toNat = s.pc.toNat + 1 by omega]
  rw [List.drop_eq_getElem_cons hpc, decodeSlots, ← hnext]
  simp only [fetch, slotAt_of_nonneg h0, List.getElem?_eq_getElem hpc]
  split <;> rename_i hd <;> rw [hd] <;> rfl

/-- What is fetched stands at a slot of the program. -/
theorem pc_inside_of_fetch {s : State} {i : Instr} (h : fetch s = .ok i) :
    0 ≤ s.pc ∧ s.pc < s.params.program.length := by
  by_contra hout
  rw [fetch_outside (by omega)] at h
  cases h

/-- A slot at `pc` puts `pc` inside the program. -/
theorem pc_lt_of_drop {s : State} {slot : Slot} {rest : List Slot} (h0 : 0 ≤ s.pc)
    (h : s.params.program.drop s.pc.toNat = slot :: rest) : s.pc < s.params.program.length := by
  have hlen := congrArg List.length h
  rw [List.length_drop, List.length_cons] at hlen
  omega

/-- The fetch reads program text, which the environment does not touch (20_memory.md R61). -/
@[simp] theorem fetch_envTurn (s : State) : fetch (envTurn s) = fetch s := by
  simp only [fetch, envTurn_params, envTurn_pc]

/-! ## One step -/

theorem step_of_fetch {s : State} {i : Instr} (hs : s.status = .running) (hf : fetch s = .ok i) :
    step s = exec i (envTurn s) := by
  rw [← fetch_envTurn] at hf
  simp only [step, hs, hf]

theorem step_of_fetch_error {s : State} {k : FaultKind} (hs : s.status = .running) (hf : fetch s = .error k) :
    step s = .next ((envTurn s).fault k) := by
  rw [← fetch_envTurn] at hf
  simp only [step, hs, hf, raise]

/-- A slot that does not decode raises its fault (30_encoding.md R112). -/
theorem step_of_decode_error {s : State} {slot : Slot} {rest : List Slot} {e : DecodeError}
    (hs : s.status = .running) (h0 : 0 ≤ s.pc) (hp : s.params.program.drop s.pc.toNat = slot :: rest)
    (hd : decodeSlots s.params.endian (slot :: rest) = .error e) :
    step s = .next ((envTurn s).fault (decodeFault s.pc e)) := by
  refine step_of_fetch_error hs ?_
  rw [fetch_inside h0 (pc_lt_of_drop h0 hp), hp, hd]
  rfl

/-- A slot that decodes runs. -/
theorem step_of_decode {s : State} {slot : Slot} {rest : List Slot} {i : Instr}
    (hs : s.status = .running) (h0 : 0 ≤ s.pc) (hp : s.params.program.drop s.pc.toNat = slot :: rest)
    (hd : decodeSlots s.params.endian (slot :: rest) = .ok i) : step s = exec i (envTurn s) := by
  refine step_of_fetch hs ?_
  rw [fetch_inside h0 (pc_lt_of_drop h0 hp), hp, hd]
  rfl

/-- A step that answers a next state ran the instruction it fetched, or raised the fault of the fetch. -/
theorem step_next_cases {s t : State} (h : step s = .next t) :
    (∃ i, fetch s = .ok i ∧ exec i (envTurn s) = .next t) ∨ (∃ k, fetch s = .error k ∧ t = (envTurn s).fault k) := by
  cases hs : s.status with
  | exited r => simp [step, hs] at h
  | faulted k => simp [step, hs] at h
  | running =>
    cases hf : fetch s with
    | ok i => exact .inl ⟨i, rfl, (step_of_fetch hs hf).symm.trans h⟩
    | error k =>
      rw [step_of_fetch_error hs hf] at h
      cases h
      exact .inr ⟨k, rfl, rfl⟩

/-- Settles O8: the list of slots decodes, so it is not empty and `pc` is inside the program. -/
theorem stepRunsTheDecodedInstruction : Obligations.StepRunsTheDecodedInstruction := by
  intro s i hs h0 hd
  have hstep : step s = exec i (envTurn s) := by
    cases hp : s.params.program.drop s.pc.toNat with
    | nil => rw [hp] at hd; cases hd
    | cons slot rest => exact step_of_decode hs h0 hp (hp ▸ hd)
  exact ⟨hstep, fun hidle => by rw [hstep, envTurn_idle hidle]⟩

/-- Settles O9: outside the program the fetch finds no slot to decode. -/
theorem fetchOutsideProgramFaults : Obligations.FetchOutsideProgramFaults :=
  fun _ hs hpc => step_of_fetch_error hs (fetch_outside hpc)

/-- Settles O15: `step` looks at the status first. -/
theorem endedRunTakesNoStep : Obligations.EndedRunTakesNoStep :=
  fun s => ⟨fun r hs => by simp only [step, hs], fun k hs => by simp only [step, hs]⟩

theorem exists_exec_next (i : Instr) (s : State) : ∃ t, exec i s = .next t := by
  have hexec : Answers (exec i s) fun _ => True := by apply answers_exec i <;> intros <;> trivial
  obtain ⟨t, ht, -⟩ := hexec
  exact ⟨t, ht⟩

/-- Settles O14: every instruction answers a next state, and so does a fetch that fails. -/
theorem runningStateAlwaysSteps : Obligations.RunningStateAlwaysSteps := by
  refine ⟨fun s hs => ?_, exists_exec_next⟩
  cases hf : fetch s with
  | ok i => rw [step_of_fetch hs hf]; exact exists_exec_next i _
  | error k => exact ⟨_, step_of_fetch_error hs hf⟩

/-! ## What every step keeps -/

/-- The invariant speaks of memory, the parameters and the call stack only. -/
theorem inv_congr {s t : State} (h : Inv s) (hm : t.mem.wf = true) (hp : t.params = s.params)
    (hc : t.calls = s.calls) : Inv t := by
  obtain ⟨-, hd, ht⟩ := h
  exact ⟨hm, by rwa [hp, hc], by rwa [hp, hc]⟩

theorem length_lt_of_not_atMaxDepth {s : State} {d : Nat} (h : atMaxDepth s = false)
    (hd : s.params.callDepthMax = some d) : s.calls.length < d := by
  simp only [atMaxDepth, hd, decide_eq_false_iff_not] at h
  omega

/-- A call below `CALL_DEPTH_MAX` from a slot of the program keeps the invariant: the new return slot follows the slot
of the call (44_call_exit.md R322). -/
theorem inv_call {s : State} (h : Inv s) (h0 : 0 ≤ s.pc) (hlt : s.pc < s.params.program.length)
    (hdepth : atMaxDepth s = false) (target : Int) :
    Inv { s with calls := s.calls ++ [s.pc + 1], pc := target } := by
  obtain ⟨hm, -, ht⟩ := h
  refine ⟨hm, fun d hd => ?_, fun t htm => ?_⟩
  · have := length_lt_of_not_atMaxDepth hdepth hd
    simp only [List.length_append, List.length_singleton]
    omega
  · rcases List.mem_append.mp htm with hold | hnew
    · exact ht t hold
    · rw [List.mem_singleton.mp hnew]
      exact ⟨by omega, by exact_mod_cast hlt⟩

/-- A return takes the last entry away and keeps the invariant. -/
theorem inv_return {s : State} (h : Inv s) (target : Int) : Inv { s with calls := s.calls.dropLast, pc := target } := by
  obtain ⟨hm, hd, ht⟩ := h
  refine ⟨hm, fun d hdm => ?_, fun t htm => ht t (List.mem_of_mem_dropLast htm)⟩
  have := hd d hdm
  simp only [List.length_dropLast]
  omega

/-- An instruction at a slot of the program keeps the invariant. -/
theorem exec_keeps_inv (i : Instr) {s : State} (h : Inv s) (h0 : 0 ≤ s.pc) (hlt : s.pc < s.params.program.length) :
    Answers (exec i s) Inv := by
  have hm : s.mem.wf = true := h.1
  apply answers_exec i
  case faults => exact fun _ => inv_congr h hm rfl rfl
  case sets => exact fun _ _ _ _ _ _ => inv_congr h hm rfl rfl
  case goesOn => exact inv_congr h hm rfl rfl
  case jumps => exact fun _ _ => inv_congr h hm rfl rfl
  case calls => exact fun _ _ hdepth => inv_call h h0 hlt hdepth _
  case exits => exact fun _ _ => inv_congr h hm rfl rfl
  case returns => exact fun t _ _ => inv_return h t
  case answered => exact fun regs bytes _ => inv_congr h (applyAnswer_wf regs bytes hm) (by simp) (by simp)
  case loadsTorn => exact fun _ _ _ _ _ _ => inv_congr h (readTorn_wf _ _ hm) (by simp) (by simp)
  case stores => exact fun _ _ _ _ ha => inv_congr h (storeAt_wf hm ha) rfl rfl
  case storesTorn => exact fun _ _ _ ha => inv_congr h (writeTorn_wf _ _ hm ha) (by simp) (by simp)
  case fetches => exact fun _ _ _ _ _ _ _ _ ha => inv_congr h (storeAt_wf hm ha) rfl rfl

/-- Settles O3: the environment's turn before the fetch keeps the invariant, a fetched instruction stands inside the
program, and every instruction there keeps it. -/
theorem stepKeepsInvariant : Obligations.StepKeepsInvariant := by
  intro s t h hstep
  have henv : Inv (envTurn s) := inv_congr h (envTurn_wf h.1) (envTurn_params s) (envTurn_calls s)
  rcases step_next_cases hstep with ⟨i, hf, ht⟩ | ⟨k, -, rfl⟩
  · obtain ⟨h0, hlt⟩ := pc_inside_of_fetch hf
    exact (exec_keeps_inv i henv (by simpa using h0) (by simpa using hlt)).of_next ht
  · exact inv_congr henv henv.1 rfl rfl

theorem exec_params (i : Instr) {s t : State} (h : exec i s = .next t) : t.params = s.params := by
  refine Answers.of_next (P := fun t => t.params = s.params) ?_ h
  apply answers_exec i <;> intros <;> simp

/-- Settles O13: no operation of an instruction writes the parameters, nor does the environment or a fault. -/
theorem parametersNeverChange : Obligations.ParametersNeverChange := by
  intro s t hstep
  rcases step_next_cases hstep with ⟨i, -, ht⟩ | ⟨k, -, rfl⟩
  · rw [exec_params i ht, envTurn_params]
  · exact envTurn_params s

/-! ## What one instruction changes -/

/-- Settles O12: an instruction that does not fault leaves a Running state Running or ends the run with EXIT, so a
faulted next state is one that `raise` took. -/
theorem faultChangesOnlyStatus : Obligations.FaultChangesOnlyStatus := by
  intro i s t k hs hexec
  refine Answers.of_next (P := fun t => t.status = .faulted k → t = s.fault k) ?_ hexec
  apply answers_exec i
  case faults =>
    intro k' hk
    injection hk with hk
    rw [hk]
  case exits => exact fun _ _ hk => Status.noConfusion hk
  all_goals
    intros
    rename_i hk
    simp [hs] at hk

/-- Settles O16: each kind of next state that an instruction has, with the clause that names its `pc`. -/
theorem pcMovesOnlyAsTheTextSays : Obligations.PcMovesOnlyAsTheTextSays := by
  intro i s t hexec
  refine Answers.of_next (P := fun t => t.pc = s.pc + 1 ∨ t.pc = s.pc + 2 ∨
    (∃ d, i.displacement = some d ∧ t.pc = s.pc + 1 + d) ∨ (i = .exit ∧ s.calls.getLast? = some t.pc) ∨
    (t.pc = s.pc ∧ t.status ≠ .running)) ?_ hexec
  apply answers_exec i
  case faults => exact fun _ => .inr (.inr (.inr (.inr ⟨rfl, Status.noConfusion⟩)))
  case sets =>
    rintro _ _ _ - - (rfl | rfl)
    · exact .inl rfl
    · exact .inr (.inl rfl)
  case jumps => exact fun d hd => .inr (.inr (.inl ⟨d, hd, rfl⟩))
  case calls =>
    rintro imm rfl -
    exact .inr (.inr (.inl ⟨imm.toInt, rfl, rfl⟩))
  case exits => exact fun _ _ => .inr (.inr (.inr (.inr ⟨rfl, Status.noConfusion⟩)))
  case returns => exact fun _ hi hlast => .inr (.inr (.inr (.inl ⟨hi, hlast⟩)))
  all_goals
    intros
    exact .inl (by simp)

theorem keepsRegs_of_x {s t : State} (h : t.x = s.x) (written : List RegNum) : KeepsRegs s t written :=
  fun r _ _ => State.reg_congr h r

/-- A write to a listed register after a change that leaves the registers alone. -/
theorem keepsRegs_setReg {s u : State} (h : u.x = s.x) {dst : RegNum} {written : List RegNum} (hw : written = [dst])
    (v : Word) (n : Int) : KeepsRegs s ((u.setReg dst v).advance n) written := by
  rintro r - hr
  subst hw
  rw [State.reg_advance, State.reg_setReg_other u v (by simpa using hr), State.reg_congr h]

/-- Settles O17: each kind of next state that an instruction has writes the one register of `writes` or none, and only
a call and a return write the call stack. -/
theorem onlyListedRegistersChange : Obligations.OnlyListedRegistersChange := by
  intro i s t hexec
  refine Answers.of_next (P := fun t => (i.asksPlatform = false → KeepsRegs s t i.writes) ∧
    ((∀ imm, i ≠ .callLocal imm) → i ≠ .exit → t.calls = s.calls)) ?_ hexec
  apply answers_exec i
  case faults => exact fun _ => ⟨fun _ => keepsRegs_of_x rfl _, fun _ _ => rfl⟩
  case sets => exact fun _ v n hw _ _ => ⟨fun _ => keepsRegs_setReg rfl hw v n, fun _ _ => rfl⟩
  case goesOn => exact ⟨fun _ => keepsRegs_of_x rfl _, fun _ _ => rfl⟩
  case jumps => exact fun _ _ => ⟨fun _ => keepsRegs_of_x rfl _, fun _ _ => rfl⟩
  case calls => exact fun imm hi _ => ⟨fun _ => keepsRegs_of_x rfl _, fun hcall => absurd hi (hcall imm)⟩
  case exits => exact fun _ _ => ⟨fun _ => keepsRegs_of_x rfl _, fun _ _ => rfl⟩
  case returns => exact fun _ hi _ => ⟨fun _ => keepsRegs_of_x rfl _, fun _ hexit => absurd hi hexit⟩
  case answered => exact fun _ _ hask => ⟨fun hno => absurd (hask.symm.trans hno) (by decide), fun _ _ => by simp⟩
  case loadsTorn => exact fun _ v n a hw _ => ⟨fun _ => keepsRegs_setReg (readTorn_x n a s) hw v 1, fun _ _ => by simp⟩
  case stores => exact fun _ _ _ _ _ => ⟨fun _ => keepsRegs_of_x rfl _, fun _ _ => rfl⟩
  case storesTorn => exact fun bs a _ _ => ⟨fun _ => keepsRegs_of_x (writeTorn_x bs a s) _, fun _ _ => by simp⟩
  case fetches => exact fun _ _ _ _ w _ hw _ _ => ⟨fun _ => keepsRegs_setReg rfl hw w 1, fun _ _ => rfl⟩

/-! ## Memory and the environment -/

/-- Memory is as before but for what the environment does to shared bytes (20_memory.md R74). -/
def KeepsMemButShared (s t : State) : Prop :=
  (∀ a, ¬SharedByte s.params a → t.mem.read a = s.mem.read a) ∧
    (s.mem.wf = true → ∀ a, Settled s a (s.mem.read a) (t.mem.read a)) ∧ (s.params.shared = [] → KeepsMem s t)

theorem KeepsMemButShared.of_mem {s t : State} (h : t.mem = s.mem) : KeepsMemButShared s t :=
  ⟨fun _ _ => by rw [h], fun _ a => h ▸ .refl s a _, fun _ _ => by rw [h]⟩

theorem keepsMemButShared_readTorn (n a : Nat) (s : State) : KeepsMemButShared s (readTorn n a s).2 := by
  have hkeep : ∀ c, ¬SharedByte s.params c → (readTorn n a s).2.mem.read c = s.mem.read c := fun c hc =>
    readTorn_read n a s (Bool.eq_false_iff.mpr fun h => hc (isShared_iff.mp h))
  exact ⟨hkeep, fun hm c => settled_readTorn_mem n a hm c, fun hidle _ => by rw [readTorn_idle n a hidle]⟩

/-- Settles O18: of the next states of an instruction that neither stores nor asks the platform, only the one of a torn
load has another memory, and there the environment alone has written. -/
theorem onlyStoresChangeMemory : Obligations.OnlyStoresChangeMemory := by
  intro i s t hstores hask hexec
  refine Answers.of_next (P := KeepsMemButShared s) ?_ hexec
  apply answers_exec i
  case loadsTorn => exact fun _ _ n a _ _ => keepsMemButShared_readTorn n a s
  case answered => exact fun _ _ h => absurd (h.symm.trans hask) (by decide)
  case stores => exact fun _ _ _ h => absurd (h.symm.trans hstores) (by decide)
  case storesTorn => exact fun _ _ h => absurd (h.symm.trans hstores) (by decide)
  case fetches => exact fun _ _ _ _ _ h => absurd (h.symm.trans hstores) (by decide)
  all_goals
    intros
    exact .of_mem rfl

/-- Settles O19: a turn writes shared bytes only, and its writes are what it has of the coming turns. -/
theorem environmentTouchesSharedBytesOnly : Obligations.EnvironmentTouchesSharedBytesOnly := fun s hm =>
  ⟨settled_envTurn hm, envTurn_x s, envTurn_pc s,
    ⟨envTurn_calls s, envTurn_status s, envTurn_params s, envTurn_draws s⟩, envTurn_env s⟩

end Sys2Proof.Proofs
end

section
/-! PROOFS. The decoder and the encoder: decoding undoes encoding, and nothing else decodes (30_encoding.md sections 1, 3
and 6). From these, which steps fault at the fetch. -/

namespace Sys2Proof.Proofs

open Sys2Proof.Machine

/-! ## Decoding undoes encoding -/

open Sys2Proof.Laws.RoundTrip in
/-- The fields of a well-formed instruction decode to it, row by row. -/
theorem decode_encodeFields : ∀ i : Instr, Statement i
  | .add32K dst imm => add32K dst imm
  | .add32X dst src => add32X dst src
  | .add64K dst imm => add64K dst imm
  | .add64X dst src => add64X dst src
  | .sub32K dst imm => sub32K dst imm
  | .sub32X dst src => sub32X dst src
  | .sub64K dst imm => sub64K dst imm
  | .sub64X dst src => sub64X dst src
  | .mul32K dst imm => mul32K dst imm
  | .mul32X dst src => mul32X dst src
  | .mul64K dst imm => mul64K dst imm
  | .mul64X dst src => mul64X dst src
  | .div32K dst imm => div32K dst imm
  | .div32X dst src => div32X dst src
  | .div64K dst imm => div64K dst imm
  | .div64X dst src => div64X dst src
  | .sdiv32K dst imm => sdiv32K dst imm
  | .sdiv32X dst src => sdiv32X dst src
  | .sdiv64K dst imm => sdiv64K dst imm
  | .sdiv64X dst src => sdiv64X dst src
  | .or32K dst imm => or32K dst imm
  | .or32X dst src => or32X dst src
  | .or64K dst imm => or64K dst imm
  | .or64X dst src => or64X dst src
  | .and32K dst imm => and32K dst imm
  | .and32X dst src => and32X dst src
  | .and64K dst imm => and64K dst imm
  | .and64X dst src => and64X dst src
  | .lsh32K dst imm => lsh32K dst imm
  | .lsh32X dst src => lsh32X dst src
  | .lsh64K dst imm => lsh64K dst imm
  | .lsh64X dst src => lsh64X dst src
  | .rsh32K dst imm => rsh32K dst imm
  | .rsh32X dst src => rsh32X dst src
  | .rsh64K dst imm => rsh64K dst imm
  | .rsh64X dst src => rsh64X dst src
  | .neg32 dst => neg32 dst
  | .neg64 dst => neg64 dst
  | .mod32K dst imm => mod32K dst imm
  | .mod32X dst src => mod32X dst src
  | .mod64K dst imm => mod64K dst imm
  | .mod64X dst src => mod64X dst src
  | .smod32K dst imm => smod32K dst imm
  | .smod32X dst src => smod32X dst src
  | .smod64K dst imm => smod64K dst imm
  | .smod64X dst src => smod64X dst src
  | .xor32K dst imm => xor32K dst imm
  | .xor32X dst src => xor32X dst src
  | .xor64K dst imm => xor64K dst imm
  | .xor64X dst src => xor64X dst src
  | .mov32K dst imm => mov32K dst imm
  | .mov32X dst src => mov32X dst src
  | .mov64K dst imm => mov64K dst imm
  | .mov64X dst src => mov64X dst src
  | .movsx32_8 dst src => movsx32_8 dst src
  | .movsx32_16 dst src => movsx32_16 dst src
  | .movsx64_8 dst src => movsx64_8 dst src
  | .movsx64_16 dst src => movsx64_16 dst src
  | .movsx64_32 dst src => movsx64_32 dst src
  | .arsh32K dst imm => arsh32K dst imm
  | .arsh32X dst src => arsh32X dst src
  | .arsh64K dst imm => arsh64K dst imm
  | .arsh64X dst src => arsh64X dst src
  | .le16 dst => le16 dst
  | .le32 dst => le32 dst
  | .le64 dst => le64 dst
  | .be16 dst => be16 dst
  | .be32 dst => be32 dst
  | .be64 dst => be64 dst
  | .bswap16 dst => bswap16 dst
  | .bswap32 dst => bswap32 dst
  | .bswap64 dst => bswap64 dst
  | .jeq64K dst off imm => jeq64K dst off imm
  | .jeq64X dst src off => jeq64X dst src off
  | .jeq32K dst off imm => jeq32K dst off imm
  | .jeq32X dst src off => jeq32X dst src off
  | .jgt64K dst off imm => jgt64K dst off imm
  | .jgt64X dst src off => jgt64X dst src off
  | .jgt32K dst off imm => jgt32K dst off imm
  | .jgt32X dst src off => jgt32X dst src off
  | .jge64K dst off imm => jge64K dst off imm
  | .jge64X dst src off => jge64X dst src off
  | .jge32K dst off imm => jge32K dst off imm
  | .jge32X dst src off => jge32X dst src off
  | .jset64K dst off imm => jset64K dst off imm
  | .jset64X dst src off => jset64X dst src off
  | .jset32K dst off imm => jset32K dst off imm
  | .jset32X dst src off => jset32X dst src off
  | .jne64K dst off imm => jne64K dst off imm
  | .jne64X dst src off => jne64X dst src off
  | .jne32K dst off imm => jne32K dst off imm
  | .jne32X dst src off => jne32X dst src off
  | .jsgt64K dst off imm => jsgt64K dst off imm
  | .jsgt64X dst src off => jsgt64X dst src off
  | .jsgt32K dst off imm => jsgt32K dst off imm
  | .jsgt32X dst src off => jsgt32X dst src off
  | .jsge64K dst off imm => jsge64K dst off imm
  | .jsge64X dst src off => jsge64X dst src off
  | .jsge32K dst off imm => jsge32K dst off imm
  | .jsge32X dst src off => jsge32X dst src off
  | .jlt64K dst off imm => jlt64K dst off imm
  | .jlt64X dst src off => jlt64X dst src off
  | .jlt32K dst off imm => jlt32K dst off imm
  | .jlt32X dst src off => jlt32X dst src off
  | .jle64K dst off imm => jle64K dst off imm
  | .jle64X dst src off => jle64X dst src off
  | .jle32K dst off imm => jle32K dst off imm
  | .jle32X dst src off => jle32X dst src off
  | .jslt64K dst off imm => jslt64K dst off imm
  | .jslt64X dst src off => jslt64X dst src off
  | .jslt32K dst off imm => jslt32K dst off imm
  | .jslt32X dst src off => jslt32X dst src off
  | .jsle64K dst off imm => jsle64K dst off imm
  | .jsle64X dst src off => jsle64X dst src off
  | .jsle32K dst off imm => jsle32K dst off imm
  | .jsle32X dst src off => jsle32X dst src off
  | .ja off => ja off
  | .ja32 imm => ja32 imm
  | .callHelper imm => callHelper imm
  | .callLocal imm => callLocal imm
  | .callBtf imm => callBtf imm
  | .exit => exit
  | .ldxW dst src off => ldxW dst src off
  | .ldxH dst src off => ldxH dst src off
  | .ldxB dst src off => ldxB dst src off
  | .ldxDw dst src off => ldxDw dst src off
  | .stW dst off imm => stW dst off imm
  | .stH dst off imm => stH dst off imm
  | .stB dst off imm => stB dst off imm
  | .stDw dst off imm => stDw dst off imm
  | .stxW dst src off => stxW dst src off
  | .stxH dst src off => stxH dst src off
  | .stxB dst src off => stxB dst src off
  | .stxDw dst src off => stxDw dst src off
  | .ldxsW dst src off => ldxsW dst src off
  | .ldxsH dst src off => ldxsH dst src off
  | .ldxsB dst src off => ldxsB dst src off
  | .atomicAdd32 dst src off => atomicAdd32 dst src off
  | .atomicFetchAdd32 dst src off => atomicFetchAdd32 dst src off
  | .atomicOr32 dst src off => atomicOr32 dst src off
  | .atomicFetchOr32 dst src off => atomicFetchOr32 dst src off
  | .atomicAnd32 dst src off => atomicAnd32 dst src off
  | .atomicFetchAnd32 dst src off => atomicFetchAnd32 dst src off
  | .atomicXor32 dst src off => atomicXor32 dst src off
  | .atomicFetchXor32 dst src off => atomicFetchXor32 dst src off
  | .atomicXchg32 dst src off => atomicXchg32 dst src off
  | .atomicCmpxchg32 dst src off => atomicCmpxchg32 dst src off
  | .atomicAdd64 dst src off => atomicAdd64 dst src off
  | .atomicFetchAdd64 dst src off => atomicFetchAdd64 dst src off
  | .atomicOr64 dst src off => atomicOr64 dst src off
  | .atomicFetchOr64 dst src off => atomicFetchOr64 dst src off
  | .atomicAnd64 dst src off => atomicAnd64 dst src off
  | .atomicFetchAnd64 dst src off => atomicFetchAnd64 dst src off
  | .atomicXor64 dst src off => atomicXor64 dst src off
  | .atomicFetchXor64 dst src off => atomicFetchXor64 dst src off
  | .atomicXchg64 dst src off => atomicXchg64 dst src off
  | .atomicCmpxchg64 dst src off => atomicCmpxchg64 dst src off
  | .lddw dst imm nextImm => lddw dst imm nextImm
  | .ldMapFd dst imm => ldMapFd dst imm
  | .ldMapValFd dst imm nextImm => ldMapValFd dst imm nextImm
  | .ldVarAddr dst imm => ldVarAddr dst imm
  | .ldCodeAddr dst imm => ldCodeAddr dst imm
  | .ldMapIdx dst imm => ldMapIdx dst imm
  | .ldMapValIdx dst imm nextImm => ldMapValIdx dst imm nextImm
  | .imm64Hi nextImm => imm64Hi nextImm
  | .ldAbsW imm => ldAbsW imm
  | .ldAbsH imm => ldAbsH imm
  | .ldAbsB imm => ldAbsB imm
  | .ldIndW src imm => ldIndW src imm
  | .ldIndH src imm => ldIndH src imm
  | .ldIndB src imm => ldIndB src imm

/-- Only opcode byte 0x18 has a second slot (30_encoding.md R104). -/
theorem decode_second_irrelevant {f : Fields} (h : f.opcode ≠ 0x18) (second second' : Option Fields) :
    decode f second = decode f second' := by
  have hld : decodeLd f second = decodeLd f second' := by
    unfold decodeLd
    split
    case h_2 hop => exact absurd (BitVec.eq_of_toNat_eq hop) h
    all_goals rfl
  simp only [decode, hld]

theorem opcode_ne_of_narrow {i : Instr} (h : (encodeFields i).2 = none) : (encodeFields i).1.opcode ≠ 0x18 := by
  cases i <;> simp [encodeFields] at h ⊢

/-- Settles O4: the slots give their fields back. A wide instruction's second slot stands behind the first; the decoder
does not look at the slot behind a narrow one. -/
theorem decodeOfEncodeIsTheInstruction : Obligations.DecodeOfEncodeIsTheInstruction := by
  intro i e rest hwf
  have hrow := decode_encodeFields i hwf
  cases hsecond : (encodeFields i).2 with
  | none =>
    rw [hsecond] at hrow
    simp only [encodeSlots, hsecond, Option.map_none, Option.toList_none, List.singleton_append, decodeSlots,
      Fields.ofSlot_ofFields]
    rw [decode_second_irrelevant (opcode_ne_of_narrow hsecond) _ none, hrow]
  | some g =>
    rw [hsecond] at hrow
    simp [encodeSlots, hsecond, decodeSlots, hrow]

/-! ## Nothing else decodes -/

/-- The instruction is well-formed, and its slots have the fields `f` and, if it is wide, `second`. -/
def Encodes (i : Instr) (f : Fields) (second : Option Fields) : Prop :=
  i.wellFormed = true ∧ (encodeFields i).1 = f ∧ ∀ g, (encodeFields i).2 = some g → second = some g

/-- What a decoding says about the fields: an instruction is given for its own slots only, and a missing second slot is
reported for the first slot of a wide instruction only. -/
structure Faithful (f : Fields) (second : Option Fields) (r : Except DecodeError Instr) : Prop where
  encodes : ∀ i, r = .ok i → Encodes i f second
  missing : r = .error .missingSecondSlot →
    second = none ∧ ∃ i g, i.wellFormed = true ∧ encodeFields i = (f, some g)

theorem faithful_unknownEncoding (f : Fields) (second : Option Fields) :
    Faithful f second (.error .unknownEncoding) := ⟨fun _ h => (by cases h), fun h => (by cases h)⟩

/-- A row of one slot: the fields it fixes have their values, and its registers are registers. -/
theorem faithful_accept {f : Fields} {second : Option Fields} {fieldsOk regsOk : Bool} {i : Instr}
    (hwf : i.wellFormed = regsOk) (henc : fieldsOk = true → encodeFields i = (f, none)) :
    Faithful f second (accept fieldsOk regsOk i) := by
  cases fieldsOk with
  | false => exact faithful_unknownEncoding f second
  | true =>
    cases regsOk with
    | false => exact ⟨fun _ h => (by cases h), fun h => (by cases h)⟩
    | true =>
      refine ⟨fun j h => ?_, fun h => (by cases h)⟩
      cases h
      exact ⟨hwf, by rw [henc rfl], fun g hg => by rw [henc rfl] at hg; cases hg⟩

section
variable {f : Fields} {second : Option Fields} {opcode : BitVec 8}

/-! Each form of a row is faithful where the encoder has the row's constants (30_encoding.md R108, R118). -/

theorem faithful_formK {offset : Offset} {c : RegNum → Imm → Instr} (hop : f.opcode.toNat = opcode.toNat)
    (henc : ∀ dst imm, encodeFields (c dst imm) = (⟨opcode, dst, 0, offset, imm⟩, none))
    (hwf : ∀ dst imm, (c dst imm).wellFormed = isReg dst) : Faithful f second (formK offset c f) :=
  faithful_accept (hwf _ _) fun h => by
    rw [henc, ← BitVec.eq_of_toNat_eq hop]; cases f; simp_all

theorem faithful_formX {offset : Offset} {c : RegNum → RegNum → Instr} (hop : f.opcode.toNat = opcode.toNat)
    (henc : ∀ dst src, encodeFields (c dst src) = (⟨opcode, dst, src, offset, 0⟩, none))
    (hwf : ∀ dst src, (c dst src).wellFormed = (isReg dst && isReg src)) : Faithful f second (formX offset c f) :=
  faithful_accept (hwf _ _) fun h => by
    rw [henc, ← BitVec.eq_of_toNat_eq hop]; cases f; simp_all

theorem faithful_formD {imm : Imm} {c : RegNum → Instr} (hop : f.opcode.toNat = opcode.toNat)
    (henc : ∀ dst, encodeFields (c dst) = (⟨opcode, dst, 0, 0, imm⟩, none))
    (hwf : ∀ dst, (c dst).wellFormed = isReg dst) : Faithful f second (formD imm c f) :=
  faithful_accept (hwf _) fun h => by
    rw [henc, ← BitVec.eq_of_toNat_eq hop]; cases f; simp_all

theorem faithful_formKOff {c : RegNum → Offset → Imm → Instr} (hop : f.opcode.toNat = opcode.toNat)
    (henc : ∀ dst off imm, encodeFields (c dst off imm) = (⟨opcode, dst, 0, off, imm⟩, none))
    (hwf : ∀ dst off imm, (c dst off imm).wellFormed = isReg dst) : Faithful f second (formKOff c f) :=
  faithful_accept (hwf _ _ _) fun h => by
    rw [henc, ← BitVec.eq_of_toNat_eq hop]; cases f; simp_all

theorem faithful_formXOff {imm : Imm} {c : RegNum → RegNum → Offset → Instr} (hop : f.opcode.toNat = opcode.toNat)
    (henc : ∀ dst src off, encodeFields (c dst src off) = (⟨opcode, dst, src, off, imm⟩, none))
    (hwf : ∀ dst src off, (c dst src off).wellFormed = (isReg dst && isReg src)) :
    Faithful f second (formXOff imm c f) :=
  faithful_accept (hwf _ _ _) fun h => by
    rw [henc, ← BitVec.eq_of_toNat_eq hop]; cases f; simp_all

theorem faithful_formOff {c : Offset → Instr} (hop : f.opcode.toNat = opcode.toNat)
    (henc : ∀ off, encodeFields (c off) = (⟨opcode, 0, 0, off, 0⟩, none)) (hwf : ∀ off, (c off).wellFormed = true) :
    Faithful f second (formOff c f) :=
  faithful_accept (hwf _) fun h => by
    rw [henc, ← BitVec.eq_of_toNat_eq hop]; cases f; simp_all

theorem faithful_formImm {src : RegNum} {c : Imm → Instr} (hop : f.opcode.toNat = opcode.toNat)
    (henc : ∀ imm, encodeFields (c imm) = (⟨opcode, 0, src, 0, imm⟩, none)) (hwf : ∀ imm, (c imm).wellFormed = true) :
    Faithful f second (formImm src c f) :=
  faithful_accept (hwf _) fun h => by
    rw [henc, ← BitVec.eq_of_toNat_eq hop]; cases f; simp_all

theorem faithful_formInd {c : RegNum → Imm → Instr} (hop : f.opcode.toNat = opcode.toNat)
    (henc : ∀ src imm, encodeFields (c src imm) = (⟨opcode, 0, src, 0, imm⟩, none))
    (hwf : ∀ src imm, (c src imm).wellFormed = isReg src) : Faithful f second (formInd c f) :=
  faithful_accept (hwf _ _) fun h => by
    rw [henc, ← BitVec.eq_of_toNat_eq hop]; cases f; simp_all

theorem faithful_formNone {i : Instr} (hop : f.opcode.toNat = opcode.toNat)
    (henc : encodeFields i = (⟨opcode, 0, 0, 0, 0⟩, none)) (hwf : i.wellFormed = true) :
    Faithful f second (formNone i f) :=
  faithful_accept hwf fun h => by
    rw [henc, ← BitVec.eq_of_toNat_eq hop]; cases f; simp_all

/-- The second slot of a wide row: its fields but `next_imm` are zero, and `next_imm` is an operand or zero. -/
theorem faithful_withSecond {usesNext : Bool} {c : Imm → Instr} (hwf : ∀ n, (c n).wellFormed = true)
    (henc : ∀ n, (usesNext || n == 0) = true → encodeFields (c n) = (f, some ⟨0, 0, 0, 0, n⟩)) :
    Faithful f second (withSecond usesNext second c) := by
  cases second with
  | none =>
    refine ⟨fun _ h => (by cases h), fun _ => ⟨rfl, c 0, ⟨0, 0, 0, 0, 0⟩, hwf 0, henc 0 (by simp)⟩⟩
  | some g =>
    simp only [withSecond]
    split
    next hg =>
      simp only [Bool.and_eq_true, beq_iff_eq] at hg
      obtain ⟨⟨⟨⟨hopcode, hdst⟩, hsrc⟩, hoff⟩, hnext⟩ := hg
      refine ⟨fun i h => ?_, fun h => (by cases h)⟩
      cases h
      refine ⟨hwf _, by rw [henc _ hnext], fun g' hg' => ?_⟩
      rw [henc _ hnext] at hg'
      cases hg'
      cases g; simp_all
    next => exact ⟨fun _ h => (by cases h), fun h => (by cases h)⟩

/-- The checks of the first slot of a wide row, in the order of 30_encoding.md R112. -/
theorem faithful_wide {r : Except DecodeError Instr} (hr : f.offset = 0 → isReg f.dst = true → Faithful f second r) :
    Faithful f second
      (if f.offset == 0 then (if isReg f.dst then r else .error .badRegister) else .error .unknownEncoding) := by
  split
  next hoff =>
    split
    next hdst => exact hr (by simpa using hoff) hdst
    next => exact ⟨fun _ h => (by cases h), fun h => (by cases h)⟩
  next => exact faithful_unknownEncoding f second

theorem faithful_wideNext {src : RegNum} {c : RegNum → Imm → Imm → Instr} (hop : f.opcode.toNat = opcode.toNat)
    (hsrc : f.src.toNat = src.toNat)
    (henc : ∀ dst imm n, encodeFields (c dst imm n) = (⟨opcode, dst, src, 0, imm⟩, some ⟨0, 0, 0, 0, n⟩))
    (hwf : ∀ dst imm n, (c dst imm n).wellFormed = isReg dst) : Faithful f second (wideNext c f second) :=
  faithful_wide fun hoff hdst => faithful_withSecond (fun _ => (hwf _ _ _).trans hdst) fun n _ => by
    rw [henc, ← BitVec.eq_of_toNat_eq hop, ← BitVec.eq_of_toNat_eq hsrc, ← hoff]

theorem faithful_wideOnly {src : RegNum} {c : RegNum → Imm → Instr} (hop : f.opcode.toNat = opcode.toNat)
    (hsrc : f.src.toNat = src.toNat)
    (henc : ∀ dst imm, encodeFields (c dst imm) = (⟨opcode, dst, src, 0, imm⟩, some ⟨0, 0, 0, 0, 0⟩))
    (hwf : ∀ dst imm, (c dst imm).wellFormed = isReg dst) : Faithful f second (wideOnly c f second) :=
  faithful_wide fun hoff hdst => faithful_withSecond (fun _ => (hwf _ _).trans hdst) fun n hn => by
    obtain rfl : n = 0 := by simpa using hn
    rw [henc, ← BitVec.eq_of_toNat_eq hop, ← BitVec.eq_of_toNat_eq hsrc, ← hoff]

/-! Each class is faithful: its rows by their forms, and the rest is no encoding. -/

theorem faithful_decodeImm64 (hop : f.opcode.toNat = 0x18) : Faithful f second (decodeImm64 f second) := by
  have hop' : f.opcode.toNat = (0x18 : BitVec 8).toNat := hop
  unfold decodeImm64
  split
  any_goals exact faithful_wideNext hop' ‹_› (fun _ _ _ => rfl) fun _ _ _ => rfl
  any_goals exact faithful_wideOnly hop' ‹_› (fun _ _ => rfl) fun _ _ => rfl
  exact faithful_unknownEncoding f second

theorem faithful_decodeLd : Faithful f second (decodeLd f second) := by
  unfold decodeLd
  split
  any_goals exact faithful_decodeImm64 ‹_›
  any_goals exact faithful_formImm ‹_› (fun _ => rfl) fun _ => rfl
  any_goals exact faithful_formInd ‹_› (fun _ _ => rfl) fun _ _ => rfl
  exact faithful_unknownEncoding f second

theorem faithful_decodeLdx : Faithful f second (decodeLdx f) := by
  unfold decodeLdx
  split
  any_goals exact faithful_formXOff ‹_› (fun _ _ _ => rfl) fun _ _ _ => rfl
  exact faithful_unknownEncoding f second

theorem faithful_decodeSt : Faithful f second (decodeSt f) := by
  unfold decodeSt
  split
  any_goals exact faithful_formKOff ‹_› (fun _ _ _ => rfl) fun _ _ _ => rfl
  exact faithful_unknownEncoding f second

theorem faithful_decodeStx : Faithful f second (decodeStx f) := by
  unfold decodeStx
  split
  case h_5 | h_6 =>
    split
    any_goals exact faithful_formXOff ‹_› (fun _ _ _ => rfl) fun _ _ _ => rfl
    exact faithful_unknownEncoding f second
  any_goals exact faithful_formXOff ‹_› (fun _ _ _ => rfl) fun _ _ _ => rfl
  exact faithful_unknownEncoding f second

theorem faithful_decodeAlu : Faithful f second (decodeAlu f) := by
  unfold decodeAlu
  split
  any_goals split
  any_goals exact faithful_unknownEncoding f second
  any_goals exact faithful_formK ‹_› (fun _ _ => rfl) fun _ _ => rfl
  any_goals exact faithful_formX ‹_› (fun _ _ => rfl) fun _ _ => rfl
  any_goals exact faithful_formD ‹_› (fun _ => rfl) fun _ => rfl

theorem faithful_decodeAlu64 : Faithful f second (decodeAlu64 f) := by
  unfold decodeAlu64
  split
  any_goals split
  any_goals exact faithful_unknownEncoding f second
  any_goals exact faithful_formK ‹_› (fun _ _ => rfl) fun _ _ => rfl
  any_goals exact faithful_formX ‹_› (fun _ _ => rfl) fun _ _ => rfl
  any_goals exact faithful_formD ‹_› (fun _ => rfl) fun _ => rfl

theorem faithful_decodeJmp : Faithful f second (decodeJmp f) := by
  unfold decodeJmp
  split
  any_goals split
  any_goals exact faithful_unknownEncoding f second
  any_goals exact faithful_formKOff ‹_› (fun _ _ _ => rfl) fun _ _ _ => rfl
  any_goals exact faithful_formXOff ‹_› (fun _ _ _ => rfl) fun _ _ _ => rfl
  any_goals exact faithful_formImm ‹_› (fun _ => rfl) fun _ => rfl
  · exact faithful_formOff ‹_› (fun _ => rfl) fun _ => rfl
  · exact faithful_formNone ‹_› rfl rfl

theorem faithful_decodeJmp32 : Faithful f second (decodeJmp32 f) := by
  unfold decodeJmp32
  split
  any_goals exact faithful_unknownEncoding f second
  any_goals exact faithful_formKOff ‹_› (fun _ _ _ => rfl) fun _ _ _ => rfl
  any_goals exact faithful_formXOff ‹_› (fun _ _ _ => rfl) fun _ _ _ => rfl
  exact faithful_formImm ‹_› (fun _ => rfl) fun _ => rfl

end

theorem faithful_decode (f : Fields) (second : Option Fields) : Faithful f second (decode f second) := by
  unfold decode
  split
  · exact faithful_decodeLd
  · exact faithful_decodeLdx
  · exact faithful_decodeSt
  · exact faithful_decodeStx
  · exact faithful_decodeAlu
  · exact faithful_decodeJmp
  · exact faithful_decodeJmp32
  · exact faithful_decodeAlu64

/-- A slot whose fields are those of an instruction is the instruction's slot, and so for the slot behind it. -/
theorem slots_of_encodes {e : Endian} {slot : Slot} {rest : List Slot} {i : Instr}
    (h : Encodes i (Fields.ofSlot e slot) (rest.head?.map (Fields.ofSlot e))) :
    ∃ rest', slot :: rest = encodeSlots e i ++ rest' := by
  obtain ⟨-, hfirst, hsecond⟩ := h
  cases hi : (encodeFields i).2 with
  | none => exact ⟨rest, by simp [encodeSlots, hfirst, hi]⟩
  | some g =>
    obtain ⟨next, hnext, rfl⟩ := Option.map_eq_some_iff.mp (hsecond g hi)
    obtain ⟨rest', rfl⟩ := List.head?_eq_some_iff.mp hnext
    exact ⟨rest', by simp [encodeSlots, hfirst, hi]⟩

/-- Settles O5: no row of the decoder gives an instruction for other fields than the encoder's, and the bytes of a slot
are determined by its fields. -/
theorem onlyEncodingsDecode : Obligations.OnlyEncodingsDecode := by
  intro e slots i hd
  cases slots with
  | nil => cases hd
  | cons slot rest =>
    have henc := (faithful_decode _ _).encodes i hd
    exact ⟨henc.1, slots_of_encodes henc⟩

/-! ## Program text -/

/-- Settles O6, by the recursion of `slotsOfBytes`, eight bytes at a time. -/
theorem programIsWholeSlots : Obligations.ProgramIsWholeSlots
  | [] => ⟨fun h => absurd rfl h, fun _ => ⟨[], rfl, rfl⟩⟩
  | [_] | [_, _] | [_, _, _] | [_, _, _, _] | [_, _, _, _, _] | [_, _, _, _, _, _] | [_, _, _, _, _, _, _] =>
    ⟨fun _ => rfl, fun h => (by simp at h)⟩
  | b0 :: b1 :: b2 :: b3 :: b4 :: b5 :: b6 :: b7 :: bytes => by
    obtain ⟨hpartial, hwhole⟩ := programIsWholeSlots bytes
    have hlen : (b0 :: b1 :: b2 :: b3 :: b4 :: b5 :: b6 :: b7 :: bytes).length % 8 = bytes.length % 8 := by
      simp only [List.length_cons]
      omega
    rw [hlen]
    refine ⟨fun h => by rw [slotsOfBytes, hpartial h]; rfl, fun h => ?_⟩
    obtain ⟨slots, hslots, hbytes⟩ := hwhole h
    exact ⟨⟨b0, b1, b2, b3, b4, b5, b6, b7⟩ :: slots, by rw [slotsOfBytes, hslots]; rfl, by simp [hbytes]⟩

/-- Settles O7: the decoder is run on each example. -/
theorem specWordsDecode : Obligations.SpecWordsDecode :=
  ⟨rfl, rfl, rfl, rfl, rfl, rfl, rfl, rfl, rfl, rfl, rfl, rfl, rfl, rfl, rfl, rfl⟩

/-! ## Faults of the fetch -/

theorem wide_of_encodeSlots {e : Endian} {i : Instr} {first second : Slot} (h : encodeSlots e i = [first, second]) :
    ∃ g, (encodeFields i).2 = some g ∧ first = Slot.ofFields e (encodeFields i).1 ∧ second = Slot.ofFields e g := by
  cases hi : (encodeFields i).2 with
  | none => simp [encodeSlots, hi] at h
  | some g =>
    simp only [encodeSlots, hi, Option.map_some, Option.toList_some, List.cons.injEq, and_true] at h
    exact ⟨g, rfl, h.1.symm, h.2.symm⟩

/-- Without its second slot a wide instruction is refused for that reason (30_encoding.md R112 step 4). -/
theorem decode_wide_cutOff {i : Instr} {g : Fields} (hwf : i.wellFormed = true) (hi : (encodeFields i).2 = some g) :
    decode (encodeFields i).1 none = .error .missingSecondSlot := by
  cases i
  case lddw | ldMapFd | ldMapValFd | ldVarAddr | ldCodeAddr | ldMapIdx | ldMapValIdx =>
    with_unfolding_all exact if_pos hwf
  all_goals simp [encodeFields] at hi

/-- Settles O10: slots that decode are an instruction's, slots refused for a missing second slot are the first of a wide
instruction, and every other refusal is IllegalInstruction. -/
theorem illegalEncodingFaults : Obligations.IllegalEncodingFaults := by
  intro s slot rest hs h0 hp
  refine ⟨fun hno hnowide => ?_, ?_⟩
  · cases hd : decodeSlots s.params.endian (slot :: rest) with
    | ok i =>
      obtain ⟨hwf, rest', hslots⟩ := onlyEncodingsDecode _ _ _ hd
      exact absurd ⟨rest', hslots.symm⟩ (hno i hwf)
    | error e =>
      rw [step_of_decode_error hs h0 hp hd]
      cases e with
      | missingSecondSlot =>
        obtain ⟨hrest, i, g, hwf, hi⟩ := (faithful_decode _ _).missing hd
        have hslots : encodeSlots s.params.endian i = [slot, Slot.ofFields s.params.endian g] := by
          simp [encodeSlots, hi]
        exact absurd hslots (hnowide i _ hwf (by simpa using hrest))
      | unknownEncoding | badRegister | badSecondSlot => rfl
  · rintro ⟨i, second, hwf, hslots⟩ rfl
    obtain ⟨g, hi, rfl, -⟩ := wide_of_encodeSlots hslots
    refine step_of_decode_error (e := .missingSecondSlot) hs h0 hp ?_
    simpa [decodeSlots] using decode_wide_cutOff hwf hi

/-! ## Opcode bytes -/

/-- A set of bytes as one number, with the bit of each byte set, so that membership is one test. -/
def maskOf : List (BitVec 8) → Nat
  | [] => 0
  | b :: bs => maskOf bs ||| 1 <<< b.toNat

theorem testBit_maskOf {bs : List (BitVec 8)} {b : BitVec 8} : (maskOf bs).testBit b.toNat = true ↔ b ∈ bs := by
  induction bs with
  | nil => simp [maskOf]
  | cons c bs ih =>
    rw [maskOf, Nat.testBit_or, Bool.or_eq_true, ih, List.mem_cons, or_comm, Nat.one_shiftLeft, Nat.testBit_two_pow,
      decide_eq_true_eq, BitVec.toNat_inj, eq_comm]

/-- The list of R124 as a number. -/
def illegalMask : Nat := 0xffffffff870f0f070f0f0f0f6f4dfd4d010101010f0e0e0e0f0e0e0e0e0f6f0f

theorem maskOf_illegalOpcodes : maskOf illegalOpcodes = illegalMask := by simp [illegalOpcodes, maskOf, illegalMask]

theorem mem_illegalOpcodes {b : BitVec 8} : b ∈ illegalOpcodes ↔ illegalMask / 2 ^ b.toNat % 2 = 1 := by
  rw [← testBit_maskOf, maskOf_illegalOpcodes, Nat.testBit_eq_decide_div_mod_eq, decide_eq_true_eq]

/-- Within each class of R124 the bytes rise, and the classes rise by the low three bits. -/
def classThenByte (b : BitVec 8) : Nat := b.toNat % 8 * 256 + b.toNat

theorem nodup_illegalOpcodes : illegalOpcodes.Nodup := by
  have hrise : (illegalOpcodes.map classThenByte).IsChain (· < ·) := by simp [illegalOpcodes, classThenByte]
  exact List.Nodup.of_map classThenByte (List.Pairwise.imp Nat.ne_of_lt hrise.pairwise)

/-- Of the bytes of R124 the table has a row for 0x00 only, the second slot (assumption log entry 13). -/
theorem eq_imm64Hi_of_illegal {i : Instr} (h : (encodeFields i).1.opcode ∈ illegalOpcodes) : ∃ n, i = .imm64Hi n := by
  rw [mem_illegalOpcodes] at h
  cases i
  case imm64Hi n => exact ⟨n, rfl⟩
  all_goals simp [encodeFields, illegalMask] at h

/-- A wide instruction's opcode byte is not in the list of R124. -/
theorem not_illegal_of_wide {i : Instr} {f g : Fields} (hi : encodeFields i = (f, some g)) :
    f.opcode ∉ illegalOpcodes := fun h => by
  obtain ⟨n, rfl⟩ := eq_imm64Hi_of_illegal (i := i) (by rwa [hi])
  cases hi

/-- Some slot with this opcode byte and this `imm`, the other fields zero, decodes. -/
def begins (b : BitVec 8) (imm : Imm) : Bool := (decode ⟨b, 0, 0, 0, imm⟩ (some ⟨0, 0, 0, 0, 0⟩)).isOk

/-- With `imm` 0, or 16 for the byte swaps, every byte that is not in the list of R124 begins an instruction. -/
theorem illegal_or_begins_nibbles : ∀ hi lo : Fin 16, illegalMask / 2 ^ (16 * hi + lo : Nat) % 2 = 1 ∨
    begins (BitVec.ofNat 8 (16 * hi + lo)) 0 = true ∨ begins (BitVec.ofNat 8 (16 * hi + lo)) 16 = true := by
  decide

theorem illegal_or_begins (b : BitVec 8) : b ∈ illegalOpcodes ∨ begins b 0 = true ∨ begins b 16 = true := by
  have hb := illegal_or_begins_nibbles ⟨b.toNat / 16, by omega⟩ ⟨b.toNat % 16, by omega⟩
  simp only [Nat.div_add_mod, BitVec.ofNat_toNat, BitVec.setWidth_eq] at hb
  rwa [mem_illegalOpcodes]

theorem exists_row_of_begins {b : BitVec 8} {imm : Imm} (h : begins b imm = true) :
    ∃ i : Instr, i.wellFormed = true ∧ (encodeFields i).1.opcode = b := by
  unfold begins at h
  cases hd : decode ⟨b, 0, 0, 0, imm⟩ (some ⟨0, 0, 0, 0, 0⟩) with
  | error e => rw [hd] at h; cases h
  | ok i =>
    obtain ⟨hwf, hfirst, -⟩ := (faithful_decode _ _).encodes i hd
    exact ⟨i, hwf, by rw [hfirst]⟩

theorem opcode_ofSlot (e : Endian) (s : Slot) : (Fields.ofSlot e s).opcode = s.b0 := by cases e <;> rfl

/-- Settles O11: an instruction with a byte of the list is the second slot, whose meaning is the same fault; and each
other byte is that of a slot that decodes. -/
theorem undefinedOpcodeBytesFault : Obligations.UndefinedOpcodeBytesFault := by
  refine ⟨by simp [illegalOpcodes], nodup_illegalOpcodes, fun s slot rest hs h0 hp hb => ?_, fun b hb => ?_⟩
  · rw [← opcode_ofSlot s.params.endian slot] at hb
    cases hd : decodeSlots s.params.endian (slot :: rest) with
    | ok i =>
      obtain ⟨-, hfirst, -⟩ := (faithful_decode _ _).encodes i hd
      obtain ⟨n, rfl⟩ := eq_imm64Hi_of_illegal (i := i) (by rwa [hfirst])
      rw [step_of_decode hs h0 hp hd, exec_imm64Hi, envTurn_pc]
      rfl
    | error e =>
      rw [step_of_decode_error hs h0 hp hd]
      cases e with
      | missingSecondSlot =>
        obtain ⟨-, i, g, -, hi⟩ := (faithful_decode _ _).missing hd
        exact absurd hb (not_illegal_of_wide hi)
      | unknownEncoding | badRegister | badSecondSlot => rfl
  · have hrow : ∃ i : Instr, i.wellFormed = true ∧ (encodeFields i).1.opcode = b := by
      rcases illegal_or_begins b with h | h | h
      · exact absurd h hb
      · exact exists_row_of_begins h
      · exact exists_row_of_begins h
    obtain ⟨i, hwf, rfl⟩ := hrow
    refine ⟨i, hwf, rfl, ?_⟩
    rintro n rfl
    exact hb (mem_illegalOpcodes.mpr (by simp [encodeFields, illegalMask]))

/-! ## The second slot -/

theorem second_eq_imm64Hi {i : Instr} {g : Fields} (hi : (encodeFields i).2 = some g) :
    ∃ n, encodeFields (.imm64Hi n) = (g, none) := by
  cases i
  case lddw | ldMapFd | ldMapValFd | ldVarAddr | ldCodeAddr | ldMapIdx | ldMapValIdx =>
    cases hi
    exact ⟨_, rfl⟩
  all_goals simp [encodeFields] at hi

/-- Settles O57: the second slot of a wide instruction is the slot of the row `imm64Hi`, which decodes to it whatever
follows. -/
theorem secondSlotFetchedIsIllegal : Obligations.SecondSlotFetchedIsIllegal := by
  refine ⟨fun s n => exec_imm64Hi n s, fun s i first second rest hs h0 _ hslots hp => ?_⟩
  obtain ⟨g, hi, -, rfl⟩ := wide_of_encodeSlots hslots
  obtain ⟨n, hn⟩ := second_eq_imm64Hi hi
  have hd := decodeOfEncodeIsTheInstruction (.imm64Hi n) s.params.endian rest rfl
  rw [encodeSlots, hn] at hd
  rw [step_of_decode hs h0 hp hd, exec_imm64Hi, envTurn_pc]
  rfl

end Sys2Proof.Proofs
end

section
/-! PROOFS. The checks before the rule of an instruction, in their order: the register numbers, the group, the registers
read (30_encoding.md R109, R112; 60_exceptions.md R433, R435, R436, R442). One lemma says it of every instruction. -/

namespace Sys2Proof.Proofs

open Sys2Proof.Machine

/-! ## The order of the checks -/

/-- The result reads these registers first, in this order. -/
def ReadsInOrder : List RegNum → State → Result → Prop
  | [], _, _ => True
  | r :: rs, s, res => ∃ body : Word → Result, res = withReg r s body ∧ ∀ v, ReadsInOrder rs s (body v)

theorem readsInOrder_cons {r : RegNum} {rs : List RegNum} {s : State} {body : Word → Result}
    (h : ∀ v, ReadsInOrder rs s (body v)) : ReadsInOrder (r :: rs) s (withReg r s body) := ⟨body, rfl, h⟩

/-- The first register without a value raises its fault. -/
theorem raise_of_readsInOrder {before after : List RegNum} {r : RegNum} {s : State} {res : Result}
    (h : ReadsInOrder (before ++ r :: after) s res) (hbefore : ∀ q ∈ before, s.reg q ≠ none) (hr : s.reg r = none) :
    res = raise (.uninitRegister r) s := by
  induction before generalizing res with
  | nil =>
    obtain ⟨body, rfl, -⟩ := h
    exact withReg_none body hr
  | cons q before ih =>
    obtain ⟨body, rfl, hbody⟩ := h
    obtain ⟨v, hv⟩ := Option.ne_none_iff_exists'.mp (hbefore q List.mem_cons_self)
    rw [withReg_some body hv]
    exact ih (hbody v) fun q' hq' => hbefore q' (List.mem_cons_of_mem q hq')

/-- The result checks that the registers are registers (`wf`), then that the group is supported, then reads `reads`. -/
def Issues (res : Result) (s : State) (g : Group) (wf : Bool) (reads : List RegNum) : Prop :=
  ∃ regs body, regs.all isReg = wf ∧ res = issue g regs s body ∧ ReadsInOrder reads s body

section
variable {g : Group} {dst src : RegNum} {s : State}

/-! The shapes of an operand form (40_alu_add_to_rsh.md R155; 46_atomic.md R376). -/

theorem issues_nothing {body : Result} : Issues (issue g [] s body) s g true [] := ⟨[], body, rfl, rfl, trivial⟩

theorem issues_writes {body : Result} : Issues (issue g [dst] s body) s g (isReg dst) [] :=
  ⟨[dst], body, by simp, rfl, trivial⟩

theorem issues_dst {body : Word → Result} : Issues (issue g [dst] s (withReg dst s body)) s g (isReg dst) [dst] :=
  ⟨[dst], _, by simp, rfl, readsInOrder_cons fun _ => trivial⟩

theorem issues_src {body : Word → Result} :
    Issues (issue g [dst, src] s (withReg src s body)) s g (isReg dst && isReg src) [src] :=
  ⟨[dst, src], _, by simp, rfl, readsInOrder_cons fun _ => trivial⟩

theorem issues_dst_src {body : Word → Word → Result} :
    Issues (issue g [dst, src] s (withReg dst s fun a => withReg src s (body a))) s g (isReg dst && isReg src)
      [dst, src] :=
  ⟨[dst, src], _, by simp, rfl, readsInOrder_cons fun _ => readsInOrder_cons fun _ => trivial⟩

theorem issues_dst_src_r0 {body : Word → Word → Word → Result} :
    Issues (issue g [dst, src] s (withReg dst s fun a => withReg src s fun b => withReg 0 s (body a b))) s g
      (isReg dst && isReg src) [dst, src, 0] :=
  ⟨[dst, src], _, by simp, rfl,
    readsInOrder_cons fun _ => readsInOrder_cons fun _ => readsInOrder_cons fun _ => trivial⟩

end

/-- Every instruction but the second slot makes the checks in this order, on the fields that Safety.lean lists. -/
theorem exec_issues (i : Instr) (s : State) (hi : ∀ n, i ≠ .imm64Hi n) :
    Issues (exec i s) s i.group i.wellFormed i.reads := by
  cases i
  case imm64Hi n => exact absurd rfl (hi n)
  case add32K | sub32K | mul32K | div32K | sdiv32K | or32K | and32K | lsh32K | rsh32K | mod32K | smod32K | xor32K |
      arsh32K | add64K | sub64K | mul64K | div64K | sdiv64K | or64K | and64K | lsh64K | rsh64K | mod64K | smod64K |
      xor64K | arsh64K | neg32 | neg64 | le16 | le32 | le64 | be16 | be32 | be64 | bswap16 | bswap32 | bswap64 |
      jeq64K | jgt64K | jge64K | jset64K | jne64K | jsgt64K | jsge64K | jlt64K | jle64K | jslt64K | jsle64K |
      jeq32K | jgt32K | jge32K | jset32K | jne32K | jsgt32K | jsge32K | jlt32K | jle32K | jslt32K | jsle32K | stW |
      stH | stB | stDw =>
    exact issues_dst
  case add32X | sub32X | mul32X | div32X | sdiv32X | or32X | and32X | lsh32X | rsh32X | mod32X | smod32X | xor32X |
      arsh32X | add64X | sub64X | mul64X | div64X | sdiv64X | or64X | and64X | lsh64X | rsh64X | mod64X | smod64X |
      xor64X | arsh64X | jeq64X | jgt64X | jge64X | jset64X | jne64X | jsgt64X | jsge64X | jlt64X | jle64X |
      jslt64X | jsle64X | jeq32X | jgt32X | jge32X | jset32X | jne32X | jsgt32X | jsge32X | jlt32X | jle32X |
      jslt32X | jsle32X | stxW | stxH | stxB | stxDw | atomicAdd32 | atomicOr32 | atomicAnd32 | atomicXor32 |
      atomicAdd64 | atomicOr64 | atomicAnd64 | atomicXor64 | atomicFetchAdd32 | atomicFetchOr32 |
      atomicFetchAnd32 | atomicFetchXor32 | atomicXchg32 | atomicFetchAdd64 | atomicFetchOr64 | atomicFetchAnd64 |
      atomicFetchXor64 | atomicXchg64 =>
    exact issues_dst_src
  case atomicCmpxchg32 | atomicCmpxchg64 =>
    exact issues_dst_src_r0
  case ldxW | ldxH | ldxB | ldxDw | ldxsW | ldxsH | ldxsB | mov32X | mov64X | movsx32_8 | movsx32_16 | movsx64_8 |
      movsx64_16 | movsx64_32 =>
    exact issues_src
  case mov32K | mov64K | ldMapFd | ldVarAddr | ldCodeAddr | ldMapIdx | ldMapValFd | ldMapValIdx | lddw | ldIndW |
      ldIndH | ldIndB =>
    exact issues_writes
  case ldAbsW | ldAbsH | ldAbsB =>
    exact issues_nothing
  case ja => rw [exec_ja]; exact issues_nothing
  case ja32 => rw [exec_ja32]; exact issues_nothing
  case callHelper => rw [exec_callHelper]; exact issues_nothing
  case callLocal => rw [exec_callLocal]; exact issues_nothing
  case callBtf => rw [exec_callBtf]; exact issues_nothing
  case exit => rw [exec_exit]; exact issues_nothing

/-- Settles O20: the group is checked before a register is read, behind the register numbers only. -/
theorem unsupportedGroupFaults : Obligations.UnsupportedGroupFaults := by
  intro i s hwf hi hg
  obtain ⟨regs, body, hregs, hexec, -⟩ := exec_issues i s hi
  rw [FaultsWith, hexec, issue_unsupported body (hregs.trans hwf) hg]
  rfl

/-- Settles O21. The second slot has no register field, so it is not among these. -/
theorem badRegisterNumberFaults : Obligations.BadRegisterNumberFaults := by
  intro i s hwf
  have hi : ∀ n, i ≠ .imm64Hi n := by
    rintro n rfl
    cases hwf
  obtain ⟨regs, body, hregs, hexec, -⟩ := exec_issues i s hi
  rw [FaultsWith, hexec, issue_illegal body (hregs.trans hwf)]
  rfl

/-- Settles O22. The second slot reads no register, so it is not among these. -/
theorem uninitRegisterFaults : Obligations.UninitRegisterFaults := by
  intro i s before after r hwf hg hreads hbefore hr
  have hi : ∀ n, i ≠ .imm64Hi n := by
    rintro n rfl
    exact List.append_ne_nil_of_right_ne_nil before (List.cons_ne_nil r after) hreads.symm
  obtain ⟨regs, body, hregs, hexec, hbody⟩ := exec_issues i s hi
  rw [hreads] at hbody
  rw [FaultsWith, hexec, issue_pass body (hregs.trans hwf) hg, raise_of_readsInOrder hbody hbefore hr]
  rfl

/-! ## The packet group -/

theorem supports_packet {groups : List Group} : supports groups .packet = true ↔ .packet ∈ groups :=
  List.contains_iff_mem

/-- Settles O55: `packet` is in `GROUPS` only where it is listed. -/
theorem packetInstructionsUnsupportedByDefault : Obligations.PacketInstructionsUnsupportedByDefault := by
  refine ⟨by decide, fun s src imm hno => ?_⟩
  have hfault : ∀ i : Instr, i.group = .packet → i.wellFormed = true →
      FaultsWith i s (.unsupportedInstruction s.pc) := fun i hgroup hwf =>
    unsupportedGroupFaults i s hwf (by rintro n rfl; cases hgroup)
      (by rw [hgroup, Bool.eq_false_iff]; exact fun h => hno (supports_packet.mp h))
  simp only [List.forall_mem_cons, List.not_mem_nil, false_implies, implies_true, and_true]
  exact ⟨⟨hfault _ rfl rfl, hfault _ rfl rfl, hfault _ rfl rfl⟩,
    fun hsrc => ⟨hfault _ rfl hsrc, hfault _ rfl hsrc, hfault _ rfl hsrc⟩⟩

end Sys2Proof.Proofs
end

section
/-! PROOFS. The other operations of the ALU classes: arithmetic, bitwise operations, division and remainder, moves and
byte swaps (40_alu_add_to_rsh.md, 41_alu_neg_to_arsh.md, 42_byteswap.md); and that class ALU looks at low halves only
(40_alu_add_to_rsh.md R151). -/

namespace Sys2Proof.Proofs

open Sys2Proof.Machine

/-! ## The operations, each in its four forms -/

theorem add_forms : HasAluForms .add32K .add32X .base32 .add64K .add64X .base64 aluAdd :=
  ⟨exec_add32K, exec_add32X, exec_add64K, exec_add64X⟩

theorem sub_forms : HasAluForms .sub32K .sub32X .base32 .sub64K .sub64X .base64 aluSub :=
  ⟨exec_sub32K, exec_sub32X, exec_sub64K, exec_sub64X⟩

theorem mul_forms : HasAluForms .mul32K .mul32X .divmul32 .mul64K .mul64X .divmul64 aluMul :=
  ⟨exec_mul32K, exec_mul32X, exec_mul64K, exec_mul64X⟩

theorem or_forms : HasAluForms .or32K .or32X .base32 .or64K .or64X .base64 aluOr :=
  ⟨exec_or32K, exec_or32X, exec_or64K, exec_or64X⟩

theorem and_forms : HasAluForms .and32K .and32X .base32 .and64K .and64X .base64 aluAnd :=
  ⟨exec_and32K, exec_and32X, exec_and64K, exec_and64X⟩

theorem xor_forms : HasAluForms .xor32K .xor32X .base32 .xor64K .xor64X .base64 aluXor :=
  ⟨exec_xor32K, exec_xor32X, exec_xor64K, exec_xor64X⟩

/-- An instruction of the one-operand form gives what the operation of that form is, on either host. -/
theorem unaryGives_of_exec {mk : RegNum → Instr} {g : Group} {op : Endian → Word → Word}
    {f : Endian → Word → Word → Prop}
    (hexec : ∀ (dst : RegNum) (s : State), exec (mk dst) s = unary g (op s.params.endian) dst s)
    (hop : ∀ e a, f e a (op e a)) : UnaryGives mk g f := fun s dst a hg ha =>
  ⟨op s.params.endian a, hop _ a,
    computes_of_finish ((hexec dst s).trans (unary_eq _ hg ha)) (State.isReg_of_reg ha)⟩

/-! ## Arithmetic -/

theorem aluAdd_eq_ofInt {w : Nat} (a b : BitVec w) : aluAdd a b = BitVec.ofInt w (a.toInt + b.toInt) := by
  rw [BitVec.ofInt_add, BitVec.ofInt_toInt, BitVec.ofInt_toInt, aluAdd]

theorem aluNeg_eq_ofInt {w : Nat} (a : BitVec w) : aluNeg a = BitVec.ofInt w (-a.toInt) := by
  rw [BitVec.ofInt_neg, BitVec.ofInt_toInt, aluNeg]

theorem aluSub_eq_ofInt {w : Nat} (a b : BitVec w) : aluSub a b = BitVec.ofInt w (a.toInt - b.toInt) := by
  rw [Int.sub_eq_add_neg, BitVec.ofInt_add, BitVec.ofInt_neg, BitVec.ofInt_toInt, BitVec.ofInt_toInt, aluSub,
    BitVec.sub_eq_add_neg]

theorem aluMul_eq_ofInt {w : Nat} (a b : BitVec w) : aluMul a b = BitVec.ofInt w (a.toInt * b.toInt) := by
  rw [BitVec.ofInt_mul, BitVec.ofInt_toInt, BitVec.ofInt_toInt, aluMul]

/-- Settles O23: bit vector arithmetic is integer arithmetic modulo the width. -/
theorem addSubMulNegWrap : Obligations.AddSubMulNegWrap := by
  refine ⟨add_forms.binaryGives fun w _ a b _ => aluAdd_eq_ofInt a b,
    sub_forms.binaryGives fun w _ a b _ => aluSub_eq_ofInt a b,
    mul_forms.binaryGives fun w _ a b _ => aluMul_eq_ofInt a b,
    unaryGives_of_exec (op := fun _ a => zext32 (aluNeg (lo32 a))) exec_neg32 fun _ a => ?neg32,
    unaryGives_of_exec (op := fun _ => aluNeg) exec_neg64 fun _ a => aluNeg_eq_ofInt a⟩
  case neg32 => rw [zext32, aluNeg_eq_ofInt, lo32]

/-! ## Bitwise operations -/

theorem aluOr_eq_ofFnLE {w : Nat} (a b : BitVec w) : aluOr a b = BitVec.ofFnLE fun k : Fin w => a[k] || b[k] :=
  BitVec.eq_of_getElem_eq fun k hk => by simp [aluOr]

theorem aluAnd_eq_ofFnLE {w : Nat} (a b : BitVec w) : aluAnd a b = BitVec.ofFnLE fun k : Fin w => a[k] && b[k] :=
  BitVec.eq_of_getElem_eq fun k hk => by simp [aluAnd]

theorem aluXor_eq_ofFnLE {w : Nat} (a b : BitVec w) : aluXor a b = BitVec.ofFnLE fun k : Fin w => a[k] != b[k] :=
  BitVec.eq_of_getElem_eq fun k hk => by simp [aluXor]

/-- Settles O24, bit by bit. -/
theorem bitwiseResults : Obligations.BitwiseResults :=
  ⟨or_forms.binaryGives fun _ _ a b _ => aluOr_eq_ofFnLE a b,
    and_forms.binaryGives fun _ _ a b _ => aluAnd_eq_ofFnLE a b,
    xor_forms.binaryGives fun _ _ a b _ => aluXor_eq_ofFnLE a b⟩

/-! ## Division and remainder by a divisor that is not zero -/

/-- Settles O26: away from a zero divisor both operations are those of the natural numbers. -/
theorem unsignedDivisionAndModulo : Obligations.UnsignedDivisionAndModulo :=
  ⟨div_forms.binaryGives fun _ _ _ _ hb => if_neg hb, mod_forms.binaryGives fun _ _ _ _ hb => if_neg hb⟩

/-- Settles O27. The overflow, the most negative value by -1, is computed at both widths. -/
theorem signedDivision : Obligations.SignedDivision :=
  ⟨sdiv_forms.binaryGives fun _ _ _ _ hb => if_neg hb, by decide, by decide⟩

/-- The remainder of truncated division is smaller than the divisor. -/
theorem natAbs_tmod_lt {a b : Int} (hb : b ≠ 0) : (a.tmod b).natAbs < b.natAbs := by
  rw [Int.natAbs_tmod]
  exact Nat.mod_lt _ (Int.natAbs_pos.mpr hb)

theorem tmod_nonpos {a : Int} (b : Int) (ha : a ≤ 0) : a.tmod b ≤ 0 := by
  have h := Int.tmod_nonneg b (show 0 ≤ -a by omega)
  rw [Int.neg_tmod] at h
  omega

/-- The remainder of two signed values of a width has that width. -/
theorem toInt_ofInt_tmod {w : Nat} (hw : 0 < w) (a b : BitVec w) (hb : b.toInt ≠ 0) :
    (BitVec.ofInt w (a.toInt.tmod b.toInt)).toInt = a.toInt.tmod b.toInt := by
  have hsize := natAbs_tmod_lt (a := a.toInt) hb
  have hle := b.le_toInt
  have hlt := b.toInt_lt
  apply BitVec.toInt_ofInt_eq_self hw <;> omega

/-- Settles O28: the integer of R201 is the remainder of truncated division. -/
theorem signedModulo : Obligations.SignedModulo := by
  refine ⟨smod_forms.binaryGives fun _ _ _ _ hb => if_neg hb, fun w hw a b hb => ?_⟩
  have hb' : b.toInt ≠ 0 := fun h => hb (BitVec.toInt_inj.mp (h.trans BitVec.toInt_zero.symm))
  rw [← Int.tmod_def]
  exact ⟨toInt_ofInt_tmod (by omega) a b hb', natAbs_tmod_lt hb', Int.tmod_nonneg _, tmod_nonpos _⟩

/-! ## Moves -/

/-- Settles O32: the move forms read no register but the source. -/
theorem moveResults : Obligations.MoveResults :=
  ⟨fun s dst imm hr => computes_of_finish ((exec_mov32K dst imm s).trans (moveK_eq _ rfl hr)) hr,
    fun s dst imm hg hr => computes_of_finish ((exec_mov64K dst imm s).trans (moveK_eq _ hg hr)) hr,
    moveGives_of_exec exec_mov32X fun _ => rfl, moveGives_of_exec exec_mov64X fun _ => rfl⟩

/-! ## Byte swaps -/

/-- A byte inside the width is the same at any width that holds it. -/
theorem byteOf_setWidth {w w' : Nat} (v : BitVec w) {k : Nat} (hk : 8 * k + 8 ≤ w') :
    byteOf (v.setWidth w') k = byteOf v k := by
  apply BitVec.eq_of_getElem_eq
  intro j hj
  simp [byteOf]
  omega

/-- The last byte appended is byte 0. -/
theorem byteOf_append_zero {w : Nat} (x : BitVec w) (b : Byte) : byteOf (x ++ b) 0 = b := by
  apply BitVec.eq_of_getElem_eq
  intro j hj
  simp [byteOf, BitVec.getLsbD_append, hj]

theorem byteOf_append_succ {w : Nat} (x : BitVec w) (b : Byte) (k : Nat) :
    byteOf (x ++ b) (k + 1) = byteOf x k := by
  apply BitVec.eq_of_getElem_eq
  intro j hj
  simp [byteOf, BitVec.getLsbD_append]
  rw [if_neg (by omega)]
  congr 1
  omega

theorem byteOf_byte (b : Byte) : byteOf b 0 = b := BitVec.extractLsb'_eq_self

/-! `swap16`, `swap32` and `swap64` append the bytes in reverse (00_scope.md R9). -/

theorem byteOf_swap16 (v : BitVec 16) (k : Nat) (hk : k < 2) : byteOf (swap16 v) k = byteOf v (2 - 1 - k) := by
  interval_cases k <;> simp only [swap16, byteOf_append_zero, byteOf_append_succ, byteOf_byte] <;> rfl

theorem byteOf_swap32 (v : BitVec 32) (k : Nat) (hk : k < 4) : byteOf (swap32 v) k = byteOf v (4 - 1 - k) := by
  interval_cases k <;> simp only [swap32, byteOf_append_zero, byteOf_append_succ, byteOf_byte] <;> rfl

theorem byteOf_swap64 (v : BitVec 64) (k : Nat) (hk : k < 8) : byteOf (swap64 v) k = byteOf v (8 - 1 - k) := by
  interval_cases k <;> simp only [swap64, byteOf_append_zero, byteOf_append_succ, byteOf_byte] <;> rfl

theorem byteOf_convert {w n : Nat} {swap : BitVec w → BitVec w}
    (hswap : ∀ v k, k < n → byteOf (swap v) k = byteOf v (n - 1 - k)) (host named : Endian) (v : BitVec w) (k : Nat)
    (hk : k < n) : byteOf (convert host named swap v) k = byteOf v (if host = named then k else n - 1 - k) := by
  unfold convert
  split
  · rfl
  · exact hswap v k hk

/-- A result of `n` bytes, zero-extended, that takes its bytes from the low `n` bytes of the operand. -/
theorem low_bytes {w n : Nat} (hw : w = 8 * n) (hn : n ≤ 8) {x : BitVec w} {a : Word} {p : Nat → Nat}
    (hx : ∀ k, k < n → byteOf x k = byteOf (a.setWidth w) (p k)) (hp : ∀ k, k < n → p k < n) :
    (x.setWidth 64).toNat < 2 ^ w ∧ ∀ k, k < n → byteOf (x.setWidth 64) k = byteOf a (p k) := by
  refine ⟨?_, fun k hk => ?_⟩
  · rw [BitVec.toNat_setWidth_of_le (by omega)]
    exact x.isLt
  · have := hp k hk
    rw [byteOf_setWidth x (by omega), hx k hk, byteOf_setWidth a (by omega)]

/-- A conversion of the low bytes to or from a byte order (42_byteswap.md R243, decision D18). -/
theorem convert_low {w n : Nat} (hw : w = 8 * n) (hn : n ≤ 8) {swap : BitVec w → BitVec w}
    (hswap : ∀ v k, k < n → byteOf (swap v) k = byteOf v (n - 1 - k)) (host named : Endian) (a : Word) :
    ((convert host named swap (a.setWidth w)).setWidth 64).toNat < 2 ^ w ∧ ∀ k, k < n →
      byteOf ((convert host named swap (a.setWidth w)).setWidth 64) k =
        byteOf a (if host = named then k else n - 1 - k) :=
  low_bytes hw hn (byteOf_convert hswap host named _) fun k hk => by split <;> omega

/-- At 64 bits the operand is the whole register. -/
theorem convert_low_64 (host named : Endian) (a : Word) :
    (convert host named swap64 a).toNat < 2 ^ 64 ∧ ∀ k, k < 8 →
      byteOf (convert host named swap64 a) k = byteOf a (if host = named then k else 8 - 1 - k) :=
  ⟨(convert host named swap64 a).isLt, byteOf_convert byteOf_swap64 host named a⟩

/-- Settles O34: a conversion keeps or reverses the bytes of the low part, BSWAP reverses them. -/
theorem byteSwapResults : Obligations.ByteSwapResults :=
  ⟨unaryGives_of_exec exec_le16 fun host => convert_low (n := 2) rfl (by decide) byteOf_swap16 host .little,
    unaryGives_of_exec exec_le32 fun host => convert_low (n := 4) rfl (by decide) byteOf_swap32 host .little,
    unaryGives_of_exec exec_le64 fun host => convert_low_64 host .little,
    unaryGives_of_exec exec_be16 fun host => convert_low (n := 2) rfl (by decide) byteOf_swap16 host .big,
    unaryGives_of_exec exec_be32 fun host => convert_low (n := 4) rfl (by decide) byteOf_swap32 host .big,
    unaryGives_of_exec exec_be64 fun host => convert_low_64 host .big,
    unaryGives_of_exec (op := fun _ a => (swap16 (a.setWidth 16)).setWidth 64) exec_bswap16 fun _ _ =>
      low_bytes rfl (by decide) (byteOf_swap16 _) fun k hk => by omega,
    unaryGives_of_exec (op := fun _ a => (swap32 (a.setWidth 32)).setWidth 64) exec_bswap32 fun _ _ =>
      low_bytes rfl (by decide) (byteOf_swap32 _) fun k hk => by omega,
    unaryGives_of_exec (op := fun _ => swap64) exec_bswap64 fun _ a => ⟨(swap64 a).isLt, byteOf_swap64 a⟩⟩

/-! ## Class ALU looks at low halves only -/

/-- The second state is the first but for the upper halves of registers. -/
def SameLow (s s' : State) : Prop :=
  s' = { s with x := s'.x } ∧
    ∀ r, (s'.reg r).map (fun v => v.setWidth 32) = (s.reg r).map (fun v : Word => v.setWidth 32)

/-- Two results end in the same status and, if still Running, with the same value below `2 ^ 32` in the register. -/
def AgreeLow (dst : RegNum) (res res' : Result) : Prop :=
  ∀ t t', res = .next t → res' = .next t' → t'.status = t.status ∧
    (t.status = .running → ∃ v, t.reg dst = some v ∧ t'.reg dst = some v ∧ v.toNat < 2 ^ 32)

section
variable {s s' : State} {dst src : RegNum} {g : Group} {imm : Imm}

theorem agreeLow_raise (k : FaultKind) : AgreeLow dst (raise k s) (raise k s') := by
  rintro t t' ⟨⟩ ⟨⟩
  exact ⟨rfl, fun h => by cases h⟩

theorem agreeLow_issue (h : SameLow s s') {regs : List RegNum} {res res' : Result}
    (hres : regs.all isReg = true → AgreeLow dst res res') : AgreeLow dst (issue g regs s res) (issue g regs s' res') := by
  rw [h.1]
  unfold issue
  split
  next hregs =>
    split
    next => exact hres hregs
    next => exact agreeLow_raise _
  next => exact agreeLow_raise _

theorem agreeLow_withReg (h : SameLow s s') {r : RegNum} {body body' : Word → Result}
    (hbody : ∀ v v', lo32 v' = lo32 v → AgreeLow dst (body v) (body' v')) :
    AgreeLow dst (withReg r s body) (withReg r s' body') := by
  have hr := h.2 r
  cases hv : s.reg r with
  | none =>
    rw [hv, Option.map_none, Option.map_eq_none_iff] at hr
    rw [withReg_none body hv, withReg_none body' hr]
    exact agreeLow_raise _
  | some v =>
    rw [hv, Option.map_some] at hr
    obtain ⟨v', hv', hlow⟩ := Option.map_eq_some_iff.mp hr
    rw [withReg_some body hv, withReg_some body' hv']
    exact hbody v v' hlow

theorem agreeLow_finish (h : SameLow s s') (hdst : isReg dst = true) (v : BitVec 32) :
    AgreeLow dst (finish dst (zext32 v) s) (finish dst (zext32 v) s') := by
  rintro t t' ⟨⟩ ⟨⟩
  refine ⟨by rw [h.1]; rfl, fun _ => ⟨zext32 v, s.reg_setReg_self _ hdst, s'.reg_setReg_self _ hdst, ?_⟩⟩
  rw [zext32, BitVec.toNat_setWidth_of_le (by decide)]
  exact v.isLt

theorem agreeLow_alu32K (h : SameLow s s') {op : BitVec 32 → BitVec 32 → BitVec 32} :
    AgreeLow dst (alu32K g op dst imm s) (alu32K g op dst imm s') :=
  agreeLow_issue h fun hregs => agreeLow_withReg h fun _ _ ha => by
    rw [ha]
    exact agreeLow_finish h (by simpa using hregs) _

theorem agreeLow_alu32X (h : SameLow s s') {op : BitVec 32 → BitVec 32 → BitVec 32} :
    AgreeLow dst (alu32X g op dst src s) (alu32X g op dst src s') :=
  agreeLow_issue h fun hregs => agreeLow_withReg h fun _ _ ha => agreeLow_withReg h fun _ _ hb => by
    rw [ha, hb]
    exact agreeLow_finish h (by simp_all) _

theorem agreeLow_neg32 (h : SameLow s s') : AgreeLow dst (exec (.neg32 dst) s) (exec (.neg32 dst) s') :=
  agreeLow_issue h fun hregs => agreeLow_withReg h fun _ _ ha => by
    beta_reduce
    rw [ha]
    exact agreeLow_finish h (by simpa using hregs) _

theorem agreeLow_mov32K (h : SameLow s s') : AgreeLow dst (exec (.mov32K dst imm) s) (exec (.mov32K dst imm) s') :=
  agreeLow_issue h fun hregs => agreeLow_finish h (by simpa using hregs) imm

theorem agreeLow_moveX (h : SameLow s s') (f : BitVec 32 → BitVec 32) :
    AgreeLow dst (moveX g (fun b => zext32 (f (lo32 b))) dst src s) (moveX g (fun b => zext32 (f (lo32 b))) dst src s') :=
  agreeLow_issue h fun hregs => agreeLow_withReg h fun _ _ hb => by
    beta_reduce
    rw [hb]
    exact agreeLow_finish h (by simp_all) _

end

/-- Each instruction of class ALU but the byte swaps, by its operand form. -/
theorem agreeLow_exec {i : Instr} {s s' : State} {dst : RegNum} (halu : i.isAlu32 = true) (hw : i.writes = [dst])
    (h : SameLow s s') : AgreeLow dst (exec i s) (exec i s') := by
  cases i
  case add32K | sub32K | mul32K | div32K | sdiv32K | or32K | and32K | lsh32K | rsh32K | mod32K | smod32K | xor32K |
      arsh32K =>
    cases hw
    exact agreeLow_alu32K h
  case add32X | sub32X | mul32X | div32X | sdiv32X | or32X | and32X | lsh32X | rsh32X | mod32X | smod32X | xor32X |
      arsh32X =>
    cases hw
    exact agreeLow_alu32X h
  case neg32 =>
    cases hw
    exact agreeLow_neg32 h
  case mov32K =>
    cases hw
    exact agreeLow_mov32K h
  case mov32X =>
    cases hw
    exact agreeLow_moveX h fun b => b
  case movsx32_8 =>
    cases hw
    exact agreeLow_moveX h (signExtendLow 8)
  case movsx32_16 =>
    cases hw
    exact agreeLow_moveX h (signExtendLow 16)
  all_goals cases halu

/-- Settles O31: whatever the upper halves, both runs pass the same checks and write the same zero-extended result. -/
theorem alu32ZeroesAndIgnoresUpperBits : Obligations.Alu32ZeroesAndIgnoresUpperBits :=
  fun _ _ _ t t' _ halu hw _ hsame hlow ht ht' => agreeLow_exec halu hw ⟨hsame, hlow⟩ t t' ht ht'

end Sys2Proof.Proofs
end

section
/-! PROOFS. Jumps, program-local calls and EXIT (43_jump.md, 44_call_exit.md). -/

namespace Sys2Proof.Proofs

open Sys2Proof.Machine

/-! ## Jumps -/

/-- A group that needs no listing, and no register: nothing stands before the rule. -/
theorem issue_base32 (s : State) (body : Result) : issue .base32 [] s body = body := issue_pass body rfl rfl

/-- Settles O35: the jump is always taken, and its target is an integer. -/
theorem unconditionalJumps : Obligations.UnconditionalJumps :=
  fun s => ⟨fun off => by rw [exec_ja, issue_base32, branch_eq, if_pos rfl],
    fun imm => by rw [exec_ja32, issue_base32]; rfl⟩

theorem branch_of_taken {taken : Bool} {p : Prop} (h : taken = true ↔ p) (off : Offset) (s : State) :
    (p → branch taken off s = .next { s with pc := s.pc + 1 + off.toInt }) ∧
      (¬p → branch taken off s = .next { s with pc := s.pc + 1 }) :=
  ⟨fun hp => by rw [branch_eq, if_pos (h.mpr hp)], fun hp => by rw [branch_eq, if_neg (mt h.mp hp)]⟩

/-- Two instructions of the forms of class JMP, with a condition that decides `cond`. -/
theorem jumps64If_of_exec {k : RegNum → Offset → Imm → Instr} {x : RegNum → RegNum → Offset → Instr}
    {cond : Word → Word → Prop} {decides : Word → Word → Bool}
    (hk : ∀ dst off imm s, exec (k dst off imm) s = jump64K decides dst off imm s)
    (hx : ∀ dst src off s, exec (x dst src off) s = jump64X decides dst src off s)
    (hcond : ∀ a b, decides a b = true ↔ cond a b) : Jumps64If k x cond :=
  ⟨fun s dst off imm a hg ha => by rw [hk, jump64K_eq decides hg ha]; exact branch_of_taken (hcond _ _) off s,
    fun s dst src off a b hg ha hb => by
      rw [hx, jump64X_eq decides hg ha hb]; exact branch_of_taken (hcond _ _) off s⟩

/-- Two instructions of the forms of class JMP32, with a condition that decides `cond`. -/
theorem jumps32If_of_exec {k : RegNum → Offset → Imm → Instr} {x : RegNum → RegNum → Offset → Instr}
    {cond : BitVec 32 → BitVec 32 → Prop} {decides : BitVec 32 → BitVec 32 → Bool}
    (hk : ∀ dst off imm s, exec (k dst off imm) s = jump32K decides dst off imm s)
    (hx : ∀ dst src off s, exec (x dst src off) s = jump32X decides dst src off s)
    (hcond : ∀ a b, decides a b = true ↔ cond a b) : Jumps32If k x cond :=
  ⟨fun s dst off imm a ha => by rw [hk, jump32K_eq decides ha]; exact branch_of_taken (hcond _ _) off s,
    fun s dst src off a b ha hb => by
      rw [hx, jump32X_eq decides ha hb]; exact branch_of_taken (hcond _ _) off s⟩

section
variable {w : Nat} (a b : BitVec w)

/-! The eleven conditions (43_jump.md R262). -/

theorem condEq_iff : condEq a b = true ↔ a = b := beq_iff_eq
theorem condGt_iff : condGt a b = true ↔ a.toNat > b.toNat := decide_eq_true_iff
theorem condGe_iff : condGe a b = true ↔ a.toNat ≥ b.toNat := decide_eq_true_iff
theorem condSet_iff : condSet a b = true ↔ a &&& b ≠ 0 := bne_iff_ne
theorem condNe_iff : condNe a b = true ↔ a ≠ b := bne_iff_ne
theorem condSgt_iff : condSgt a b = true ↔ a.toInt > b.toInt := decide_eq_true_iff
theorem condSge_iff : condSge a b = true ↔ a.toInt ≥ b.toInt := decide_eq_true_iff
theorem condLt_iff : condLt a b = true ↔ a.toNat < b.toNat := decide_eq_true_iff
theorem condLe_iff : condLe a b = true ↔ a.toNat ≤ b.toNat := decide_eq_true_iff
theorem condSlt_iff : condSlt a b = true ↔ a.toInt < b.toInt := decide_eq_true_iff
theorem condSle_iff : condSle a b = true ↔ a.toInt ≤ b.toInt := decide_eq_true_iff

end

/-- Settles O36: each pair of instructions has the forms of class JMP, with the model's condition for R262's. -/
theorem conditionalJumps64 : Obligations.ConditionalJumps64 :=
  ⟨jumps64If_of_exec exec_jeq64K exec_jeq64X condEq_iff, jumps64If_of_exec exec_jgt64K exec_jgt64X condGt_iff,
    jumps64If_of_exec exec_jge64K exec_jge64X condGe_iff, jumps64If_of_exec exec_jset64K exec_jset64X condSet_iff,
    jumps64If_of_exec exec_jne64K exec_jne64X condNe_iff, jumps64If_of_exec exec_jsgt64K exec_jsgt64X condSgt_iff,
    jumps64If_of_exec exec_jsge64K exec_jsge64X condSge_iff, jumps64If_of_exec exec_jlt64K exec_jlt64X condLt_iff,
    jumps64If_of_exec exec_jle64K exec_jle64X condLe_iff, jumps64If_of_exec exec_jslt64K exec_jslt64X condSlt_iff,
    jumps64If_of_exec exec_jsle64K exec_jsle64X condSle_iff⟩

/-- Settles O37: each pair of instructions has the forms of class JMP32, with the model's condition for R262's. -/
theorem conditionalJumps32 : Obligations.ConditionalJumps32 :=
  ⟨jumps32If_of_exec exec_jeq32K exec_jeq32X condEq_iff, jumps32If_of_exec exec_jgt32K exec_jgt32X condGt_iff,
    jumps32If_of_exec exec_jge32K exec_jge32X condGe_iff, jumps32If_of_exec exec_jset32K exec_jset32X condSet_iff,
    jumps32If_of_exec exec_jne32K exec_jne32X condNe_iff, jumps32If_of_exec exec_jsgt32K exec_jsgt32X condSgt_iff,
    jumps32If_of_exec exec_jsge32K exec_jsge32X condSge_iff, jumps32If_of_exec exec_jlt32K exec_jlt32X condLt_iff,
    jumps32If_of_exec exec_jle32K exec_jle32X condLe_iff, jumps32If_of_exec exec_jslt32K exec_jslt32X condSlt_iff,
    jumps32If_of_exec exec_jsle32K exec_jsle32X condSle_iff⟩

/-! ## Calls and returns -/

theorem atMaxDepth_iff {s : State} :
    atMaxDepth s = true ↔ ∃ d, s.params.callDepthMax = some d ∧ d ≤ s.calls.length := by
  unfold atMaxDepth
  split
  next h => simp [h]
  next d h => simp [h]

theorem exec_callLocal_of_atMaxDepth {s : State} (imm : Imm) (h : atMaxDepth s = true) :
    exec (.callLocal imm) s = .next (s.fault (.callDepthExceeded s.pc)) := by
  rw [exec_callLocal, issue_base32, if_pos h]
  rfl

theorem exec_callLocal_of_not_atMaxDepth {s : State} (imm : Imm) (h : atMaxDepth s = false) :
    exec (.callLocal imm) s = .next { s with calls := s.calls ++ [s.pc + 1], pc := s.pc + 1 + imm.toInt } := by
  rw [exec_callLocal, issue_base32, h]
  rfl

/-- Settles O38: the two clauses are the two answers of the depth test. -/
theorem callLocalPushesAndJumps : Obligations.CallLocalPushesAndJumps := by
  refine fun s imm => ⟨fun hbelow => ?_, fun d hd hfull => ?_⟩
  · refine exec_callLocal_of_not_atMaxDepth imm (Bool.eq_false_iff.mpr fun h => ?_)
    obtain ⟨d, hd, hfull⟩ := atMaxDepth_iff.mp h
    exact absurd (hbelow d hd) (by omega)
  · exact exec_callLocal_of_atMaxDepth imm (atMaxDepth_iff.mpr ⟨d, hd, hfull⟩)

theorem exec_exit_of_calls_nil {s : State} (h : s.calls = []) :
    exec .exit s = .next { s with status := .exited (s.reg 0) } := by
  simp only [exec_exit, issue_base32, h, List.getLast?_nil]

theorem exec_exit_of_calls_concat {s : State} {rest : List Int} {t : Int} (h : s.calls = rest ++ [t]) :
    exec .exit s = .next { s with calls := rest, pc := t } := by
  simp only [exec_exit, issue_base32, h, List.getLast?_concat, List.dropLast_concat]

/-- Settles O39: the two clauses are the two forms of the call stack. -/
theorem exitReturnsOrEndsTheRun : Obligations.ExitReturnsOrEndsTheRun :=
  fun _ => ⟨exec_exit_of_calls_nil, fun _ _ => exec_exit_of_calls_concat⟩

/-- Settles O40: the call that leaves the run Running is the one below the greatest depth, and EXIT pops what it
pushed. -/
theorem returnComesBackBehindTheCall : Obligations.ReturnComesBackBehindTheCall := by
  intro s t u imm _ hcall hrunning hcalls
  cases hdepth : atMaxDepth s with
  | true =>
    rw [exec_callLocal_of_atMaxDepth imm hdepth] at hcall
    cases hcall
    cases hrunning
  | false =>
    rw [exec_callLocal_of_not_atMaxDepth imm hdepth] at hcall
    cases hcall
    exact exec_exit_of_calls_concat hcalls

end Sys2Proof.Proofs
end

section
/-! PROOFS. What the platform answers: helper calls, packet instructions and the lookups of the wide instructions
(44_call_exit.md R321, R323; 47_imm64.md; 48_packet.md R428). -/

namespace Sys2Proof.Proofs

open Sys2Proof.Machine

/-! ## Calls of a platform function -/

theorem platformCall_of_returns {fn : PlatformFn} {s : State} {regs : List (RegNum × Option Word)}
    {bytes : List (Word × Byte)} (h : answerOf s fn = some (.returns regs bytes)) :
    platformCall fn s = .next ((applyAnswer regs bytes s).advance 1) := by
  simp only [platformCall, h]

theorem platformCall_of_no_return {fn : PlatformFn} {s : State}
    (h : answerOf s fn = none ∨ answerOf s fn = some .fails) :
    platformCall fn s = .next (s.fault (.platformFault (.call fn))) := by
  rcases h with h | h <;> simp only [platformCall, h, raise]

section
variable {i : Instr} {fn : PlatformFn} {s : State}

/-! What an instruction does that is a call of the function. -/

theorem answeredBy_of_returns (hexec : exec i s = platformCall fn s) (hm : s.mem.wf = true)
    {regs : List (RegNum × Option Word)} {bytes : List (Word × Byte)}
    (h : answerOf s fn = some (.returns regs bytes)) : AnsweredBy i s regs bytes :=
  ⟨_, hexec.trans (platformCall_of_returns h), by simp, fun _ hr => applyAnswer_reg regs bytes s hr,
    fun a => applyAnswer_read regs bytes hm a, by simp, by simp, by simp, by simp, rfl⟩

theorem askGives_of_exec (hexec : exec i s = platformCall fn s) (hm : s.mem.wf = true) : AskGives i fn s :=
  fun _ _ h => answeredBy_of_returns hexec hm h

theorem askFaults_of_exec (hexec : exec i s = platformCall fn s) : AskFaults i fn s :=
  fun h => hexec.trans (platformCall_of_no_return h)

/-- The answer taken is one that the relation gives, and there is none only where the relation gives none. -/
theorem takesAnAnswer_of_exec (hexec : exec i s = platformCall fn s) (hm : s.mem.wf = true) : TakesAnAnswer i fn s := by
  refine ⟨fun ⟨a, ha⟩ => ?_, fun hnone => askFaults_of_exec hexec (.inl (answerOf_eq_none.mpr hnone))⟩
  cases h : answerOf s fn with
  | none => exact absurd ha (answerOf_eq_none.mp h a)
  | some answer =>
    cases answer with
    | fails => exact .inr ⟨gives_of_answerOf h, askFaults_of_exec hexec (.inr h)⟩
    | returns regs bytes => exact .inl ⟨regs, bytes, gives_of_answerOf h, answeredBy_of_returns hexec hm h⟩

end

theorem callHelper_asks (imm : Imm) (s : State) :
    exec (.callHelper imm) s = platformCall (.helper .staticId imm) s := by rw [exec_callHelper, issue_base32]

theorem callBtf_asks (imm : Imm) (s : State) : exec (.callBtf imm) s = platformCall (.helper .btfId imm) s := by
  rw [exec_callBtf, issue_base32]

/-- Settles O41: both instructions are calls of the function they name. -/
theorem helperCallsTakeThePlatformsAnswer : Obligations.HelperCallsTakeThePlatformsAnswer :=
  fun s imm hm => ⟨askGives_of_exec (callHelper_asks imm s) hm, askGives_of_exec (callBtf_asks imm s) hm⟩

/-- Settles O42: both instructions are calls of the function they name. -/
theorem missingHelperFaults : Obligations.MissingHelperFaults :=
  fun s imm => ⟨askFaults_of_exec (callHelper_asks imm s), askFaults_of_exec (callBtf_asks imm s)⟩

/-! ## Packet instructions, where the group is supported -/

theorem issue_packet_abs {s : State} (hg : .packet ∈ s.params.groups) (body : Result) :
    issue .packet [] s body = body := issue_pass body rfl (supports_packet.mpr hg)

theorem issue_packet_ind {s : State} {src : RegNum} (hg : .packet ∈ s.params.groups) (hsrc : isReg src = true)
    (body : Result) : issue .packet [src] s body = body := issue_one body (supports_packet.mpr hg) hsrc

/-- Settles O56: where the group is supported a packet instruction is a call of the function it names. -/
theorem packetInstructionsTakeThePlatformsAnswer : Obligations.PacketInstructionsTakeThePlatformsAnswer := by
  intro s src imm hg
  have hboth : ∀ {i : Instr} {fn : PlatformFn}, exec i s = platformCall fn s →
      (s.mem.wf = true → AskGives i fn s) ∧ AskFaults i fn s :=
    fun hexec => ⟨askGives_of_exec hexec, askFaults_of_exec hexec⟩
  exact ⟨hboth (issue_packet_abs hg _), hboth (issue_packet_abs hg _), hboth (issue_packet_abs hg _),
    fun hsrc => ⟨hboth (issue_packet_ind hg hsrc _), hboth (issue_packet_ind hg hsrc _),
      hboth (issue_packet_ind hg hsrc _)⟩⟩

/-- Settles O58: all eight instructions are calls of the function they name. -/
theorem platformCallTakesAnAnswerOfItsRelation : Obligations.PlatformCallTakesAnAnswerOfItsRelation :=
  fun s _ imm hm => ⟨takesAnAnswer_of_exec (callHelper_asks imm s) hm, takesAnAnswer_of_exec (callBtf_asks imm s) hm,
    fun hg => ⟨takesAnAnswer_of_exec (issue_packet_abs hg _) hm, takesAnAnswer_of_exec (issue_packet_abs hg _) hm,
      takesAnAnswer_of_exec (issue_packet_abs hg _) hm, fun hsrc =>
        ⟨takesAnAnswer_of_exec (issue_packet_ind hg hsrc _) hm, takesAnAnswer_of_exec (issue_packet_ind hg hsrc _) hm,
          takesAnAnswer_of_exec (issue_packet_ind hg hsrc _) hm⟩⟩⟩

/-! ## Wide instructions -/

theorem computesWide_of_finishWide {i : Instr} {s : State} {dst : RegNum} {v : Word}
    (h : exec i s = finishWide dst v s) (hr : isReg dst = true) : ComputesWide i s dst v :=
  ⟨_, h, setsReg_finish s hr v 2⟩

/-- Neither half of the immediate is sign-extended (decision D24). -/
theorem imm64_eq_ofNat (imm nextImm : Imm) :
    imm64 imm nextImm = BitVec.ofNat 64 (nextImm.toNat * 2 ^ 32 + imm.toNat) := by
  apply BitVec.eq_of_toNat_eq
  rw [imm64, toNat_concat, BitVec.toNat_ofNat, Nat.mod_eq_of_lt (by omega)]

/-- Settles O52: the two halves are appended, which is their sum at the two weights. -/
theorem wideImmediateResult : Obligations.WideImmediateResult := fun s dst imm nextImm hg hr =>
  computesWide_of_finishWide (by rw [exec_lddw, issue_one _ hg hr, imm64_eq_ofNat]) hr

/-- Settles O53: the six are wide lookups, two of them in two stages. -/
theorem platformLookupResults : Obligations.PlatformLookupResults := fun _ _ _ _ _ _ hg hr =>
  ⟨fun hfound => computesWide_of_finishWide (wideLookup_some _ hg hr hfound) hr,
    fun hfound => computesWide_of_finishWide (wideLookup_some _ hg hr hfound) hr,
    fun hfound => computesWide_of_finishWide (wideLookup_some _ hg hr hfound) hr,
    fun hfound => computesWide_of_finishWide (wideLookup_some _ hg hr hfound) hr,
    fun hmap hval => computesWide_of_finishWide (wideMapVal_some _ _ hg hr hmap hval) hr,
    fun hmap hval => computesWide_of_finishWide (wideMapVal_some _ _ hg hr hmap hval) hr⟩

/-- Settles O54: a lookup that gives none ends the instruction at that stage. -/
theorem missingLookupFaults : Obligations.MissingLookupFaults := by
  intro s dst imm nextImm m hg hr
  refine ⟨fun hfd => ⟨?fd, ?valFd⟩, fun hidx => ⟨?idx, ?valIdx⟩, fun hvar => ?var, fun hcode => ?code,
    fun hval => ⟨fun hfd => ?noValFd, fun hidx => ?noValIdx⟩⟩
  case fd => rw [FaultsWith, exec_ldMapFd, hfd]; exact wideLookup_none _ hg hr
  case valFd => rw [FaultsWith, exec_ldMapValFd, hfd]; exact wideMapVal_noMap _ _ hg hr
  case idx => rw [FaultsWith, exec_ldMapIdx, hidx]; exact wideLookup_none _ hg hr
  case valIdx => rw [FaultsWith, exec_ldMapValIdx, hidx]; exact wideMapVal_noMap _ _ hg hr
  case var => rw [FaultsWith, exec_ldVarAddr, hvar]; exact wideLookup_none _ hg hr
  case code => rw [FaultsWith, exec_ldCodeAddr, hcode]; exact wideLookup_none _ hg hr
  case noValFd => rw [FaultsWith, exec_ldMapValFd, hfd]; exact wideMapVal_noVal _ _ hg hr hval
  case noValIdx => rw [FaultsWith, exec_ldMapValIdx, hidx]; exact wideMapVal_noVal _ _ hg hr hval

end Sys2Proof.Proofs
end

section
/-! PROOFS. Loads, stores and atomic operations: their results, whole and torn, and their faults (45_load_store.md,
46_atomic.md, 20_memory.md). -/

namespace Sys2Proof.Proofs

open Sys2Proof.Machine

/-! ## Loads -/

/-- An instruction of the load form, where the access is one event. -/
theorem loadGives_of_exec {mk : RegNum → RegNum → Offset → Instr} {g : Group} {n : Nat} {ext : Word → Word}
    (hexec : ∀ dst src off s, exec (mk dst src off) s = load g n ext dst src off s) (hn : n ≤ 8) :
    LoadGives mk g n ext := fun s dst src off base hg hr hb hp ht =>
  ⟨_, holdsAt_readBytes s _ hn, computes_of_finish (by
    rw [hexec, load_eq n ext hg hr hb, effAddr, memRead_whole _ (accessible_iff.mpr hp) (tears_eq_false ht)]) hr⟩

/-- Settles O43: the seven loads are one form, at four sizes and with two extensions. -/
theorem loadResults : Obligations.LoadResults :=
  ⟨loadGives_of_exec exec_ldxW (by decide), loadGives_of_exec exec_ldxH (by decide),
    loadGives_of_exec exec_ldxB (by decide), loadGives_of_exec exec_ldxDw (by decide),
    loadGives_of_exec exec_ldxsW (by decide), loadGives_of_exec exec_ldxsH (by decide),
    loadGives_of_exec exec_ldxsB (by decide)⟩

theorem byteOf_valueOf (e : Endian) {bs : List Byte} {n : Nat} (hlen : bs.length = n) (hn : n ≤ 8) {k : Nat}
    (hk : k < n) : byteOf (valueOf e bs) (lane e n k) = bs[k]'(by omega) := by
  subst hlen
  have hmade := madeOf_valueOf e bs hn (fun k => bs.getD k 0) fun j hj => (List.getElem_eq_getD 0)
  rw [hmade.2 k hk, List.getElem_eq_getD 0]

/-- An instruction of the load form, where the access is torn. -/
theorem loadTornGives_of_exec {mk : RegNum → RegNum → Offset → Instr} {g : Group} {n : Nat} {ext : Word → Word}
    (hexec : ∀ dst src off s, exec (mk dst src off) s = load g n ext dst src off s) (hn : n ≤ 8) :
    LoadTornGives mk g n ext := by
  intro s dst src off base hg hr hb hm hp ht
  have hlen := readTorn_length n (base + off.signExtend 64).toNat s
  have hread := (hexec dst src off s).trans (load_eq n ext hg hr hb)
  rw [effAddr, memRead_torn _ (accessible_iff.mpr hp) (tears_iff.mpr ht)] at hread
  refine ⟨_, _, hread, State.reg_setReg_self _ _ hr, ?bound, fun k hk => ?byte, settled_readTorn_mem n _ hm,
    keepsRegs_setReg (readTorn_x n _ s) rfl _ 1, by simp, ⟨by simp, by simp, by simp, by simp⟩, readTorn_env n _ s⟩
  case bound => simpa [hlen] using valueOf_lt s.params.endian _ (hlen.trans_le hn)
  case byte =>
    rw [byteOf_valueOf s.params.endian hlen hn hk]
    exact settled_readTorn n _ hm hk

/-- Settles O44: the same form, for the five loads of more than one byte. -/
theorem tornLoadResults : Obligations.TornLoadResults :=
  ⟨loadTornGives_of_exec exec_ldxW (by decide), loadTornGives_of_exec exec_ldxH (by decide),
    loadTornGives_of_exec exec_ldxDw (by decide), loadTornGives_of_exec exec_ldxsW (by decide),
    loadTornGives_of_exec exec_ldxsH (by decide)⟩

/-! ## Stores -/

section
variable {i : Instr} {s : State} {a v : Word} {n : Nat}

theorem storesThen_of_memWrite (hexec : exec i s = memWrite a n v s fun s' => .next (s'.advance 1))
    (hm : s.mem.wf = true) (hp : Performed s.params a n .store) (ht : ¬Torn s.params a n) : StoresThen i s a n v := by
  have ha := accessible_iff.mpr hp
  exact ⟨_, hexec.trans (memWrite_whole _ ha (tears_eq_false ht)), storesAt_storeAt v hm (accessible_le ha),
    keepsRegs_of_x rfl [], rfl, rfl, rfl, rfl, rfl, rfl⟩

theorem storesTornThen_of_memWrite (hexec : exec i s = memWrite a n v s fun s' => .next (s'.advance 1))
    (hm : s.mem.wf = true) (hp : Performed s.params a n .store) (ht : Torn s.params a n) :
    StoresTornThen i s a n v := by
  have ha := accessible_iff.mpr hp
  have hend : a.toNat + (bytesOf s.params.endian n v).length ≤ 2 ^ 64 := by simpa using accessible_le ha
  refine ⟨_, hexec.trans (memWrite_torn _ ha (tears_iff.mpr ht)), fun k hk => ?_, fun c hc => ?_,
    keepsRegs_of_x (writeTorn_x _ _ s) [], by simp, ⟨by simp, by simp, by simp, by simp⟩, writeTorn_env _ _ s⟩
  · have hbyte := settled_writeTorn (bytesOf s.params.endian n v) a.toNat hm hend (k := k) (by simpa using hk)
    rwa [bytesOf_getElem] at hbyte
  · exact settled_writeTorn_outside _ a.toNat hm hend (by simpa using hc)

end

/-- An instruction of the form of a store of an immediate. -/
theorem storeImmGives_of_exec {mk : RegNum → Offset → Imm → Instr} {g : Group} {n : Nat}
    (hexec : ∀ dst off imm s, exec (mk dst off imm) s = storeImm g n dst off imm s) : StoreImmGives mk g n :=
  fun s dst off imm _ hg hb hm hp =>
    have hwrite := (hexec dst off imm s).trans (storeImm_eq n hg hb)
    ⟨storesThen_of_memWrite hwrite hm hp, storesTornThen_of_memWrite hwrite hm hp⟩

/-- An instruction of the form of a store of a register. -/
theorem storeRegGives_of_exec {mk : RegNum → RegNum → Offset → Instr} {g : Group} {n : Nat}
    (hexec : ∀ dst src off s, exec (mk dst src off) s = storeReg g n dst src off s) : StoreRegGives mk g n :=
  fun s dst src off _ _ hg hb hv hm hp =>
    have hwrite := (hexec dst src off s).trans (storeReg_eq n hg hb hv)
    ⟨storesThen_of_memWrite hwrite hm hp, storesTornThen_of_memWrite hwrite hm hp⟩

/-- Settles O45: the four stores are one form, at four sizes. -/
theorem immediateStoreResults : Obligations.ImmediateStoreResults :=
  ⟨storeImmGives_of_exec exec_stW, storeImmGives_of_exec exec_stH, storeImmGives_of_exec exec_stB,
    storeImmGives_of_exec exec_stDw⟩

/-- Settles O46: the four stores are one form, at four sizes. -/
theorem registerStoreResults : Obligations.RegisterStoreResults :=
  ⟨storeRegGives_of_exec exec_stxW, storeRegGives_of_exec exec_stxH, storeRegGives_of_exec exec_stxB,
    storeRegGives_of_exec exec_stxDw⟩

/-! ## Atomic operations -/

/-- An instruction of the atomic form without FETCH. -/
theorem atomicGives_of_exec {mk : RegNum → RegNum → Offset → Instr} {g : Group} {n : Nat} {op : Word → Word → Word}
    (hexec : ∀ dst src off s, exec (mk dst src off) s = atomicSimple g n op dst src off s) (hn : n ≤ 8) :
    AtomicGives mk g n op := by
  intro s dst src off base v hg hb hv hm hp
  have ha := accessible_iff.mpr hp
  have hrmw := (hexec dst src off s).trans (atomicSimple_eq n op hg hb hv)
  rw [effAddr, atomicRmw_some (f := fun old => some (op old v)) _ ha rfl] at hrmw
  exact ⟨_, holdsAt_readBytes s _ hn, _, hrmw, storesAt_storeAt _ hm (accessible_le ha), keepsRegs_of_x rfl [], rfl,
    rfl, rfl, rfl, rfl, rfl⟩

/-- Settles O49: the eight are one form, for four operations at two sizes. -/
theorem atomicResults : Obligations.AtomicResults :=
  ⟨atomicGives_of_exec exec_atomicAdd32 (by decide), atomicGives_of_exec exec_atomicOr32 (by decide),
    atomicGives_of_exec exec_atomicAnd32 (by decide), atomicGives_of_exec exec_atomicXor32 (by decide),
    atomicGives_of_exec exec_atomicAdd64 (by decide), atomicGives_of_exec exec_atomicOr64 (by decide),
    atomicGives_of_exec exec_atomicAnd64 (by decide), atomicGives_of_exec exec_atomicXor64 (by decide)⟩

/-- An instruction of the atomic form with FETCH. -/
theorem atomicFetchGives_of_exec {mk : RegNum → RegNum → Offset → Instr} {g : Group} {n : Nat}
    {op : Word → Word → Word} (hexec : ∀ dst src off s, exec (mk dst src off) s = atomicFetch g n op dst src off s)
    (hn : n ≤ 8) : AtomicFetchGives mk g n op := by
  intro s dst src off base v hg hb hv hm hp
  have ha := accessible_iff.mpr hp
  have hrmw := (hexec dst src off s).trans (atomicFetch_eq n op hg hb hv)
  rw [effAddr, atomicRmw_some (f := fun old => some (op old v)) _ ha rfl] at hrmw
  exact ⟨_, _, holdsAt_readBytes s _ hn, hrmw, storesAt_storeAt _ hm (accessible_le ha),
    State.reg_setReg_self _ _ (State.isReg_of_reg hv), keepsRegs_setReg rfl rfl _ 1, rfl, rfl, rfl, rfl, rfl, rfl⟩

/-- Settles O50: the ten are one form, for five operations at two sizes. -/
theorem atomicFetchResults : Obligations.AtomicFetchResults :=
  ⟨atomicFetchGives_of_exec exec_atomicFetchAdd32 (by decide), atomicFetchGives_of_exec exec_atomicFetchOr32 (by decide),
    atomicFetchGives_of_exec exec_atomicFetchAnd32 (by decide),
    atomicFetchGives_of_exec exec_atomicFetchXor32 (by decide), atomicFetchGives_of_exec exec_atomicXchg32 (by decide),
    atomicFetchGives_of_exec exec_atomicFetchAdd64 (by decide), atomicFetchGives_of_exec exec_atomicFetchOr64 (by decide),
    atomicFetchGives_of_exec exec_atomicFetchAnd64 (by decide),
    atomicFetchGives_of_exec exec_atomicFetchXor64 (by decide), atomicFetchGives_of_exec exec_atomicXchg64 (by decide)⟩

/-- An instruction of the form of CMPXCHG, whose comparison is that of the old value with the low bytes of r0. -/
theorem cmpxchgGives_of_exec {mk : RegNum → RegNum → Offset → Instr} {g : Group} {n : Nat}
    {same : Word → Word → Bool}
    (hexec : ∀ dst src off s, exec (mk dst src off) s = atomicCmpxchg g n same dst src off s) (hn : n ≤ 8)
    (hsame : ∀ old c : Word, old.toNat < 2 ^ (8 * n) → (same old c = true ↔ old.toNat = c.toNat % 2 ^ (8 * n))) :
    CmpxchgGives mk g n := by
  intro s dst src off base v c hg hb hv hc hm hp
  have ha := accessible_iff.mpr hp
  have hold := holdsAt_readBytes s (base + off.signExtend 64) hn
  have hiff := hsame _ c hold.1
  have hrmw := (hexec dst src off s).trans (atomicCmpxchg_eq n same hg hb hv hc)
  rw [effAddr] at hrmw
  cases hs : same (valueOf s.params.endian (readBytes s.mem (base + off.signExtend 64).toNat n)) c with
  | true =>
    rw [atomicRmw_some (v := v) _ ha (by rw [hs, if_pos rfl])] at hrmw
    exact ⟨_, _, hold, hrmw, fun _ => storesAt_storeAt v hm (accessible_le ha), fun hne => absurd (hiff.mp hs) hne,
      State.reg_setReg_self _ _ rfl, keepsRegs_setReg rfl rfl _ 1, rfl, rfl, rfl, rfl, rfl, rfl⟩
  | false =>
    rw [atomicRmw_none _ ha (by rw [hs]; rfl)] at hrmw
    exact ⟨_, _, hold, hrmw, fun heq => absurd (hiff.mpr heq) (by rw [hs]; decide), fun _ _ => rfl,
      State.reg_setReg_self _ _ rfl, keepsRegs_setReg rfl rfl _ 1, rfl, rfl, rfl, rfl, rfl, rfl⟩

theorem lo32_beq_iff (old c : Word) (hold : old.toNat < 2 ^ 32) :
    (lo32 old == lo32 c) = true ↔ old.toNat = c.toNat % 2 ^ 32 := by
  rw [beq_iff_eq, ← BitVec.toNat_inj, lo32, lo32, BitVec.toNat_setWidth, BitVec.toNat_setWidth, Nat.mod_eq_of_lt hold]

theorem beq_iff_toNat (old c : Word) (_ : old.toNat < 2 ^ 64) : (old == c) = true ↔ old.toNat = c.toNat % 2 ^ 64 := by
  rw [beq_iff_eq, Nat.mod_eq_of_lt c.isLt, BitVec.toNat_inj]

/-- Settles O51: at both sizes the comparison is that of the old value with the low bytes of r0. -/
theorem cmpxchgResults : Obligations.CmpxchgResults :=
  ⟨cmpxchgGives_of_exec exec_atomicCmpxchg32 (by decide) lo32_beq_iff,
    cmpxchgGives_of_exec exec_atomicCmpxchg64 (by decide) beq_iff_toNat⟩

/-! ## Faults of an access -/

section
variable {g : Group} {n : Nat} {dst src : RegNum} {off : Offset} {imm : Imm} {s : State} {base v c : Word}

/-! What each form of an access does where the access is not performed (20_memory.md R62, R64, R70). -/

theorem load_faults {ext : Word → Word} (hg : supports s.params.groups g = true) (hr : isReg dst = true)
    (hb : s.reg src = some base) (hp : ¬Performed s.params (base + off.signExtend 64) n .load) :
    load g n ext dst src off s = .next (s.fault (.memoryFault (base + off.signExtend 64) n .load)) := by
  rw [load_eq n ext hg hr hb, effAddr, memRead_fault _ (accessible_eq_false hp)]
  rfl

theorem storeImm_faults (hg : supports s.params.groups g = true) (hb : s.reg dst = some base)
    (hp : ¬Performed s.params (base + off.signExtend 64) n .store) :
    storeImm g n dst off imm s = .next (s.fault (.memoryFault (base + off.signExtend 64) n .store)) := by
  rw [storeImm_eq n hg hb, effAddr, memWrite_fault _ (accessible_eq_false hp)]
  rfl

theorem storeReg_faults (hg : supports s.params.groups g = true) (hb : s.reg dst = some base)
    (hv : s.reg src = some v) (hp : ¬Performed s.params (base + off.signExtend 64) n .store) :
    storeReg g n dst src off s = .next (s.fault (.memoryFault (base + off.signExtend 64) n .store)) := by
  rw [storeReg_eq n hg hb hv, effAddr, memWrite_fault _ (accessible_eq_false hp)]
  rfl

theorem atomicSimple_faults {op : Word → Word → Word} (hg : supports s.params.groups g = true)
    (hb : s.reg dst = some base) (hv : s.reg src = some v)
    (hp : ¬Performed s.params (base + off.signExtend 64) n .atomic) :
    atomicSimple g n op dst src off s = .next (s.fault (.memoryFault (base + off.signExtend 64) n .atomic)) := by
  rw [atomicSimple_eq n op hg hb hv, effAddr, atomicRmw_fault _ (accessible_eq_false hp)]
  rfl

theorem atomicFetch_faults {op : Word → Word → Word} (hg : supports s.params.groups g = true)
    (hb : s.reg dst = some base) (hv : s.reg src = some v)
    (hp : ¬Performed s.params (base + off.signExtend 64) n .atomic) :
    atomicFetch g n op dst src off s = .next (s.fault (.memoryFault (base + off.signExtend 64) n .atomic)) := by
  rw [atomicFetch_eq n op hg hb hv, effAddr, atomicRmw_fault _ (accessible_eq_false hp)]
  rfl

theorem atomicCmpxchg_faults {same : Word → Word → Bool} (hg : supports s.params.groups g = true)
    (hb : s.reg dst = some base) (hv : s.reg src = some v) (hc : s.reg 0 = some c)
    (hp : ¬Performed s.params (base + off.signExtend 64) n .atomic) :
    atomicCmpxchg g n same dst src off s = .next (s.fault (.memoryFault (base + off.signExtend 64) n .atomic)) := by
  rw [atomicCmpxchg_eq n same hg hb hv hc, effAddr, atomicRmw_fault _ (accessible_eq_false hp)]
  rfl

end

/-- Settles O48: each access by its form, whose check of the access comes behind the registers it reads. -/
theorem memoryFaults : Obligations.MemoryFaults := by
  intro s dst src off imm base v c
  refine ⟨fun hr hb => ?loads, fun hb => ?storesImm, fun hb hv => ?storesReg,
    fun hb hv => ⟨fun hg hp => ?atomics32, fun hg hp => ?atomics64⟩⟩
  case loads =>
    exact ⟨load_faults rfl hr hb, load_faults rfl hr hb, load_faults rfl hr hb, fun hg => load_faults hg hr hb,
      load_faults rfl hr hb, load_faults rfl hr hb, load_faults rfl hr hb⟩
  case storesImm =>
    exact ⟨storeImm_faults rfl hb, storeImm_faults rfl hb, storeImm_faults rfl hb, fun hg => storeImm_faults hg hb⟩
  case storesReg =>
    exact ⟨storeReg_faults rfl hb hv, storeReg_faults rfl hb hv, storeReg_faults rfl hb hv,
      fun hg => storeReg_faults hg hb hv⟩
  case atomics32 =>
    simp only [List.forall_mem_cons, List.not_mem_nil, false_implies, implies_true, and_true]
    exact ⟨⟨atomicSimple_faults hg hb hv hp, atomicFetch_faults hg hb hv hp, atomicSimple_faults hg hb hv hp,
      atomicFetch_faults hg hb hv hp, atomicSimple_faults hg hb hv hp, atomicFetch_faults hg hb hv hp,
      atomicSimple_faults hg hb hv hp, atomicFetch_faults hg hb hv hp, atomicFetch_faults hg hb hv hp⟩,
      fun hc => atomicCmpxchg_faults hg hb hv hc hp⟩
  case atomics64 =>
    simp only [List.forall_mem_cons, List.not_mem_nil, false_implies, implies_true, and_true]
    exact ⟨⟨atomicSimple_faults hg hb hv hp, atomicFetch_faults hg hb hv hp, atomicSimple_faults hg hb hv hp,
      atomicFetch_faults hg hb hv hp, atomicSimple_faults hg hb hv hp, atomicFetch_faults hg hb hv hp,
      atomicSimple_faults hg hb hv hp, atomicFetch_faults hg hb hv hp, atomicFetch_faults hg hb hv hp⟩,
      fun hc => atomicCmpxchg_faults hg hb hv hc hp⟩

/-! ## A store, then a load -/

section
variable {g : Group} {regs : List RegNum} {r : RegNum} {s t : State} {n : Nat} {a v : Word}

/-! What the operations have passed where the next state is Running. -/

theorem not_running_of_raise {k : FaultKind} (h : raise k s = .next t) : t.status ≠ .running := by
  cases h
  exact Status.noConfusion

theorem issue_of_running {body : Result} (h : issue g regs s body = .next t) (ht : t.status = .running) :
    regs.all isReg = true ∧ body = .next t := by
  unfold issue at h
  split at h
  next hregs =>
    split at h
    next => exact ⟨hregs, h⟩
    next => exact absurd ht (not_running_of_raise h)
  next => exact absurd ht (not_running_of_raise h)

theorem withReg_of_running {body : Word → Result} (h : withReg r s body = .next t) (ht : t.status = .running) :
    ∃ v, s.reg r = some v ∧ body v = .next t := by
  cases hr : s.reg r with
  | none => rw [withReg_none body hr] at h; exact absurd ht (not_running_of_raise h)
  | some v => rw [withReg_some body hr] at h; exact ⟨v, rfl, h⟩

theorem not_torn_of_idle {p : Params} (h : p.shared = []) (a : Word) (n : Nat) : ¬Torn p a n := by
  rintro ⟨-, ⟨k, -, range, hrange, -⟩, -⟩
  rw [h] at hrange
  cases hrange

theorem memWrite_of_running {body : State → Result} (h : memWrite a n v s body = .next t) (ht : t.status = .running)
    (hidle : s.params.shared = []) : a.toNat + n ≤ 2 ^ 64 ∧ body (storeAt a n v s) = .next t := by
  cases ha : accessible s.params a n .store with
  | false => rw [memWrite_fault body ha] at h; exact absurd ht (not_running_of_raise h)
  | true =>
    rw [memWrite_whole body ha (tears_eq_false (not_torn_of_idle hidle a n))] at h
    exact ⟨accessible_le ha, h⟩

theorem memRead_of_running {body : Word → State → Result} (h : memRead a n s body = .next t)
    (ht : t.status = .running) (hidle : s.params.shared = []) :
    body (valueOf s.params.endian (readBytes s.mem a.toNat n)) s = .next t := by
  cases ha : accessible s.params a n .load with
  | false => rw [memRead_fault body ha] at h; exact absurd ht (not_running_of_raise h)
  | true => rwa [memRead_whole body ha (tears_eq_false (not_torn_of_idle hidle a n))] at h

theorem storeReg_of_running {dst src : RegNum} {off : Offset} (h : storeReg g n dst src off s = .next t)
    (ht : t.status = .running) (hidle : s.params.shared = []) (hv : s.reg src = some v) :
    ∃ base, s.reg dst = some base ∧ (effAddr base off).toNat + n ≤ 2 ^ 64 ∧
      t = (storeAt (effAddr base off) n v s).advance 1 := by
  obtain ⟨-, h⟩ := issue_of_running h ht
  obtain ⟨base, hb, h⟩ := withReg_of_running h ht
  rw [withReg_some _ hv] at h
  obtain ⟨hend, h⟩ := memWrite_of_running h ht hidle
  cases h
  exact ⟨base, hb, hend, rfl⟩

theorem load_of_running {ext : Word → Word} {dst src : RegNum} {off : Offset} {base : Word}
    (h : load g n ext dst src off s = .next t) (ht : t.status = .running) (hidle : s.params.shared = [])
    (hb : s.reg src = some base) :
    t.reg dst = some (ext (valueOf s.params.endian (readBytes s.mem (effAddr base off).toNat n))) := by
  obtain ⟨hregs, h⟩ := issue_of_running h ht
  rw [withReg_some _ hb] at h
  have h := memRead_of_running h ht hidle
  cases h
  exact State.reg_setReg_self _ _ (by simp_all)

end

/-- The bytes a store has put at an address are those of the value's low part. -/
theorem value_of_storesAt {s t : State} {a v : Word} {n : Nat} (hn : n ≤ 8) (h : StoresAt s t a n v)
    (hp : t.params = s.params) :
    valueOf t.params.endian (readBytes t.mem a.toNat n) = (v.setWidth (8 * n)).setWidth 64 := by
  obtain ⟨hbound, hbytes⟩ := low_bytes (n := n) (x := v.setWidth (8 * n)) (a := v) (p := fun k => k) rfl hn
    (fun _ _ => rfl) fun _ hk => hk
  refine (holdsAt_readBytes t a hn).unique ⟨hbound, fun k hk => ?_⟩
  have hlane : lane t.params.endian n k < n := by
    cases t.params.endian
    · exact hk
    · simp only [lane]; omega
  rw [hbytes _ hlane, hp]
  exact (h.1 k hk).symm

/-- A store and a load of the same size, base and offset. -/
theorem load_after_store {g g' : Group} {n : Nat} {s t u : State} {dst src d : RegNum} {off : Offset} {v : Word}
    (hn : n ≤ 8) (hm : s.mem.wf = true) (hv : s.reg src = some v) (hidle : s.params.shared = [])
    (ht : t.status = .running) (hu : u.status = .running) (hstore : storeReg g n dst src off s = .next t)
    (hload : load g' n (fun w => w) d dst off t = .next u) :
    u.reg d = some ((v.setWidth (8 * n)).setWidth 64) := by
  obtain ⟨base, hb, hend, rfl⟩ := storeReg_of_running hstore ht hidle hv
  have hstored : StoresAt s ((storeAt (effAddr base off) n v s).advance 1) (effAddr base off) n v :=
    storesAt_storeAt v hm hend
  rw [load_of_running hload hu hidle hb, value_of_storesAt hn hstored rfl]

/-- Settles O47: since both instructions leave the run Running, the store and the load were performed. -/
theorem storeThenLoadGivesTheValue : Obligations.StoreThenLoadGivesTheValue := by
  intro s t u dst src d off v hm _ hv hidle ht hu
  have hload {g g' : Group} {n : Nat} (hn : n ≤ 8) := load_after_store (g := g) (g' := g') (dst := dst) (d := d)
    (off := off) hn hm hv hidle ht hu
  refine ⟨hload (n := 4) (by decide), hload (n := 2) (by decide), hload (n := 1) (by decide),
    fun hstore hl => ?dw⟩
  case dw => simpa using hload (n := 8) (by decide) hstore hl

end Sys2Proof.Proofs
end
